-- ==== Sys2Proof/Word.lean ====
section
/-! DEFINITION. The words of the block: a byte (00_scope.md R10), a host request word (30_encoding.md R101)
and a response (30_encoding.md R109). Bit 0 is the least significant bit (00_scope.md R9). -/

namespace Sys2Proof

/-- A bus byte, a segment byte, the lamp mirror: 8 bits (00_scope.md R10). -/
abbrev Byte := BitVec 8

/-- A host request word: 64 bits (30_encoding.md R101). -/
abbrev RequestWord := BitVec 64

/-- A response on the host port: 32 bits (30_encoding.md R109). -/
abbrev Response := BitVec 32

end Sys2Proof
end

