-- ==== Sys2Proof/Config.lean ====
section
/-! DEFINITION. What an implementation fixes (the parameters FONT, GAUGE_SEG and CLK_EDGE of
00_scope.md R8) and the free
values. Every constant here is opaque and has no body: nothing can be proved of it but what its type says, so a
theorem about the machine holds for every value that the type admits. -/

namespace Sys2Proof

/-- FONT (41_lookup.md R176): 18 segment bytes indexed by symbol code. Only what R176 leaves free is held: the
seven segment bits of codes 0 to 16. Entry 17 is the blank pattern 0x00 and bit 7 of every entry is 0, as R176
demands, so the values of this type are exactly the tables that meet R176. -/
structure Font where
  segments : Vector (BitVec 7) 17
  deriving DecidableEq, Repr, Inhabited

/-- Two masks share no segment bit. -/
abbrev Disjoint8 (a b : Byte) : Prop := a &&& b = 0#8

/-- The constraints of 44_gauge.md R260: seven masks, each non-zero, pairwise disjoint. -/
abbrev GaugeMasksValid (masks : List Byte) : Prop :=
  (∀ m ∈ masks, m ≠ 0#8) ∧ masks.Pairwise Disjoint8

/-- GAUGE_SEG (44_gauge.md R260): a byte mask for each of seven roles, with the constraints of R260 as a proof. The
values written here are the reference layout REF of 92_eei_decisions.md D9: they show that a layout exists and
serve the tests, and no definition of the machine uses them. -/
structure GaugeSeg where
  g1 : Byte := 0x01#8
  g2Full : Byte := 0x02#8
  g2Half : Byte := 0x04#8
  g3 : Byte := 0x08#8
  g4Full : Byte := 0x10#8
  g4Half : Byte := 0x20#8
  g5 : Byte := 0x40#8
  valid : GaugeMasksValid [g1, g2Full, g2Half, g3, g4Full, g4Half, g5] := by decide
  deriving DecidableEq, Repr, Inhabited

/-- A level of the clock line. -/
inductive ClockLevel where
  | low
  | high
  deriving DecidableEq, Repr, Inhabited

/-- A change of the clock line's level. -/
inductive ClockTransition where
  | rising
  | falling
  deriving DecidableEq, Repr, Inhabited

/-- CLK_EDGE (00_scope.md R8; 20_memory.md R64): the idle level, active edge and rate of the clock line and its setup
and hold times, each number in the realisation's own unit. The spec leaves all of it OPEN, without a constraint. -/
structure ClkEdge where
  idle : ClockLevel
  active : ClockTransition
  rate : Nat
  setup : Nat
  hold : Nat
  deriving DecidableEq, Repr, Inhabited

/-- DESIGN CHOICE (log 7). The FONT of the realisation: any table that meets R176 (41_lookup.md R176, D8). -/
opaque Config.font : Font

/-- DESIGN CHOICE (log 8). The GAUGE_SEG of the realisation: any layout that meets R260 (44_gauge.md R260, D9). -/
opaque Config.gaugeSeg : GaugeSeg

/-- DESIGN CHOICE (log 15). The CLK_EDGE of the realisation, which belongs to the bus collaborator (D13). No rule of
the block depends on it (20_memory.md R64), so no meaning reads it. -/
opaque Config.clkEdge : ClkEdge

/-- DESIGN CHOICE (log 9). The free value of a key-scan draw (20_memory.md R79, D15): the byte of draw number `n`,
where `State.keyBytes` has no byte left. -/
opaque Config.keyByte : Nat → Byte

/-- DESIGN CHOICE (log 2). What reading the lamp mirror gives while it holds no value (10_state.md R46). No run
from power-on reads it: NotInitialized stops every request that would (42_device_ops.md R215). -/
opaque Config.powerOnLampMask : Byte

end Sys2Proof
end

