-- ==== Sys2Proof/Syntax.lean ====
section
/-! DEFINITION. The instructions: one constructor per row of spec/opcode_table.json. The first ten are the host
requests of 30_encoding.md R102 with the operand fields of R103; the last seven are the bus command bytes of
R110 to R112, each with the data bytes that follow it in its frame (20_memory.md R84). -/

namespace Sys2Proof

/-- One host request, or one frame as the controller chip reads it. -/
inductive Instr where
  /-- RESET, opcode 0x01, format HN (42_device_ops.md R200). -/
  | reset
  /-- SETBRIGHT, opcode 0x02, format HA (42_device_ops.md R205). -/
  | setBright (level : Byte)
  /-- SETLAMP, opcode 0x03, format HL (42_device_ops.md R210). -/
  | setLamp (num : Byte) (on : Bool)
  /-- GETLAMP, opcode 0x04, format HA (42_device_ops.md R215). -/
  | getLamp (num : Byte)
  /-- SETGRID, opcode 0x05, format HG (43_grid_ops.md R230). -/
  | setGrid (pos : Byte) (code : Byte) (dp : Bool)
  /-- CLEARGRID, opcode 0x06, format HA (43_grid_ops.md R233). -/
  | clearGrid (pos : Byte)
  /-- CLEAR, opcode 0x07, format HN (43_grid_ops.md R236). -/
  | clear
  /-- SHOWNUM, opcode 0x08, format HS; `value` is two's complement (43_grid_ops.md R242). -/
  | showNum (value : BitVec 32) (dpPos : Byte) (start : Byte)
  /-- GAUGE, opcode 0x09, format HV (44_gauge.md R262). -/
  | gauge (g1 g2 g3 g4 g5 : Byte)
  /-- SCAN, opcode 0x0A, format HN (45_scan.md R282). -/
  | scan
  /-- AUTOINC_ON, command byte 0x40 (20_memory.md R82). -/
  | autoIncOn
  /-- KEY_SCAN, command byte 0x42 (20_memory.md R85). -/
  | keyScan
  /-- AUTOINC_OFF, command byte 0x44 (20_memory.md R82). -/
  | autoIncOff
  /-- DISPLAY_OFF, command byte 0x87 (20_memory.md R83). -/
  | displayOff
  /-- DISPLAY_ON, command bytes 0x88..0x8F, field LEVEL_MINUS_1 (20_memory.md R83). -/
  | displayOn (levelMinus1 : BitVec 3)
  /-- ADDR_GRID, address byte 0xC0 + 2k, field POS_MINUS_1 = k, and the data bytes (20_memory.md R84). -/
  | addrGrid (posMinus1 : BitVec 3) (data : List Byte)
  /-- ADDR_LAMP, address byte 0xC1 + 2k, field POS_MINUS_1 = k, and the data bytes (20_memory.md R84). -/
  | addrLamp (posMinus1 : BitVec 3) (data : List Byte)
  deriving DecidableEq, Repr

/-- The instruction is a host request (30_encoding.md R102), not a bus command. -/
def Instr.isRequest : Instr → Bool
  | .reset => true
  | .setBright _ => true
  | .setLamp _ _ => true
  | .getLamp _ => true
  | .setGrid _ _ _ => true
  | .clearGrid _ => true
  | .clear => true
  | .showNum _ _ _ => true
  | .gauge _ _ _ _ _ => true
  | .scan => true
  | .autoIncOn => false
  | .keyScan => false
  | .autoIncOff => false
  | .displayOff => false
  | .displayOn _ => false
  | .addrGrid _ _ => false
  | .addrLamp _ _ => false

end Sys2Proof
end

