-- ==== Sys2Proof/WellFormed.lean ====
section
/-! DEFINITION. Well-formed instructions. Every operand of a request is a bit field, so every request is
well-formed. A bus command is well-formed when its frame is one the block sends: the data bytes of a write frame
are limited by 20_memory.md R62, 30_encoding.md R113 and R117. -/

namespace Sys2Proof

/-- The 16 zero bytes of the RESET bulk frame (40_framer.md R145). -/
def bulkZeros : List Byte := List.replicate 16 0x00#8

/-- A grid frame carries one data byte, or is the RESET bulk frame: 16 zero bytes from 0xC0 (30_encoding.md R117). -/
def gridFrameOk (posMinus1 : BitVec 3) (data : List Byte) : Bool :=
  data.length == 1 || (posMinus1 == 0#3 && data == bulkZeros)

/-- A lamp frame carries one lamp byte, 0x01 or 0x00 (30_encoding.md R113). -/
def lampFrameOk (data : List Byte) : Bool :=
  data == [0x00#8] || data == [0x01#8]

/-- The well-formed instructions. -/
def Instr.wf : Instr → Bool
  | .reset => true
  | .setBright _ => true
  | .setLamp _ _ => true
  | .getLamp _ => true
  | .setGrid _ _ _ => true
  | .clearGrid _ => true
  | .clear => true
  | .showNum _ _ _ => true
  | .gauge _ _ _ _ _ => true
  | .scan => true
  | .autoIncOn => true
  | .keyScan => true
  | .autoIncOff => true
  | .displayOff => true
  | .displayOn _ => true
  | .addrGrid posMinus1 data => gridFrameOk posMinus1 data
  | .addrLamp _ data => lampFrameOk data

end Sys2Proof
end

