-- ==== Sys2Proof/Decode.lean ====
section
/-! DEFINITION. The two encodings of 30_encoding.md: the host request word (R101 to R106) and the bus frame, whose
first byte is a command byte (R110 to R117). The decoder is total and rejects by name; the encoder after it is
written from the same tables. -/

namespace Sys2Proof

/-- What an instruction is encoded as (30_encoding.md R100): a request word, or the bytes of a frame in the order
they are sent (20_memory.md R65). -/
inductive Code where
  | request (w : RequestWord)
  | frame (bytes : List Byte)
  deriving DecidableEq, Repr

/-- Why a code is no instruction. -/
inductive Reject where
  /-- The opcode is 0x00 or one of 0x0B..0xFF (30_encoding.md R106). -/
  | reservedOpcode (w : RequestWord)
  /-- A must-be-zero bit is set (30_encoding.md R105). -/
  | mustBeZero (w : RequestWord)
  /-- The frame carries no command byte (log 6). -/
  | emptyFrame
  /-- The first byte is no command byte of 30_encoding.md R110 (20_memory.md R86). -/
  | unknownCommand (b : Byte)
  /-- Data bytes follow a command that takes none (30_encoding.md R117; log 6). -/
  | strayData (b : Byte)
  deriving DecidableEq, Repr

/-! ### The request word -/

/-- The opcode field w[63:56] (30_encoding.md R101). -/
def opcodeOf (w : RequestWord) : Byte := w.extractLsb' 56 8

/-- Format HN: no operand, bits 55:0 zero (30_encoding.md R103). -/
def wordHN (op : Byte) : RequestWord := op ++ 0#56

/-- Format HA: A in bits 7:0 (30_encoding.md R103). -/
def wordHA (op a : Byte) : RequestWord := op ++ 0#48 ++ a

/-- Format HL: NUM in bits 7:0, ON in bit 8 (30_encoding.md R103). -/
def wordHL (op num : Byte) (on : Bool) : RequestWord := op ++ 0#47 ++ BitVec.ofBool on ++ num

/-- Format HG: POS in bits 7:0, CODE in 15:8, DP in bit 16 (30_encoding.md R103). -/
def wordHG (op pos code : Byte) (dp : Bool) : RequestWord := op ++ 0#39 ++ BitVec.ofBool dp ++ code ++ pos

/-- Format HS: VALUE in bits 31:0, DPPOS in 39:32, START in 47:40 (30_encoding.md R103). -/
def wordHS (op : Byte) (value : BitVec 32) (dpPos start : Byte) : RequestWord :=
  op ++ 0#8 ++ start ++ dpPos ++ value

/-- Format HV: G1 in bits 7:0 up to G5 in 39:32 (30_encoding.md R103). -/
def wordHV (op g1 g2 g3 g4 g5 : Byte) : RequestWord := op ++ 0#16 ++ g5 ++ g4 ++ g3 ++ g2 ++ g1

/-- The request, if the must-be-zero field of its format is zero (30_encoding.md R105). -/
def unlessSet {n : Nat} (zeroField : BitVec n) (w : RequestWord) (i : Instr) : Except Reject Instr :=
  if zeroField = 0#n then .ok i else .error (.mustBeZero w)

/-- Decode a request word: the opcode first, then the must-be-zero bits (60_exceptions.md R303). -/
def decodeRequest (w : RequestWord) : Except Reject Instr :=
  match (opcodeOf w).toNat with
  | 0x01 => unlessSet (w.extractLsb' 0 56) w .reset
  | 0x02 => unlessSet (w.extractLsb' 8 48) w (.setBright (w.extractLsb' 0 8))
  | 0x03 => unlessSet (w.extractLsb' 9 47) w (.setLamp (w.extractLsb' 0 8) (w.getLsbD 8))
  | 0x04 => unlessSet (w.extractLsb' 8 48) w (.getLamp (w.extractLsb' 0 8))
  | 0x05 => unlessSet (w.extractLsb' 17 39) w (.setGrid (w.extractLsb' 0 8) (w.extractLsb' 8 8) (w.getLsbD 16))
  | 0x06 => unlessSet (w.extractLsb' 8 48) w (.clearGrid (w.extractLsb' 0 8))
  | 0x07 => unlessSet (w.extractLsb' 0 56) w .clear
  | 0x08 => unlessSet (w.extractLsb' 48 8) w (.showNum (w.extractLsb' 0 32) (w.extractLsb' 32 8) (w.extractLsb' 40 8))
  | 0x09 =>
    unlessSet (w.extractLsb' 40 16) w
      (.gauge (w.extractLsb' 0 8) (w.extractLsb' 8 8) (w.extractLsb' 16 8) (w.extractLsb' 24 8) (w.extractLsb' 32 8))
  | 0x0A => unlessSet (w.extractLsb' 0 56) w .scan
  | _ => .error (.reservedOpcode w)

/-! ### The bus frame -/

/-- CMD_AUTOINC_ON (30_encoding.md R110). -/
def cmdAutoIncOn : Byte := 0x40#8

/-- CMD_KEYSCAN (30_encoding.md R110). -/
def cmdKeyScan : Byte := 0x42#8

/-- CMD_AUTOINC_OFF (30_encoding.md R110). -/
def cmdAutoIncOff : Byte := 0x44#8

/-- The display command byte 0x87 + l, l in 0..8 (30_encoding.md R111). -/
def cmdDisplay (l : Nat) : Byte := BitVec.ofNat 8 (0x87 + l)

/-- BASE, the first register address (30_encoding.md R110; 00_scope.md R8). -/
def regBase : Nat := 0xC0

/-- N_REG, the number of chip registers (00_scope.md R8). -/
def regCount : Nat := 16

/-- The address byte of grid register k + 1: 0xC in bits 7:4, k in 3:1, 0 in bit 0 (30_encoding.md R112). -/
def gridByte (k : BitVec 3) : Byte := 0xC#4 ++ k ++ 0#1

/-- The address byte of lamp register k + 1: as the grid's, with bit 0 set (30_encoding.md R112). -/
def lampByte (k : BitVec 3) : Byte := 0xC#4 ++ k ++ 1#1

/-- The byte is an address command, 0xC0..0xCF (30_encoding.md R112). -/
def isAddress (c : Byte) : Bool := c.extractLsb' 4 4 == 0xC#4

/-- Decode a command byte that takes no data bytes (30_encoding.md R110, R111). -/
def decodeCommand (c : Byte) : Except Reject Instr :=
  if c = cmdAutoIncOn then .ok .autoIncOn
  else if c = cmdKeyScan then .ok .keyScan
  else if c = cmdAutoIncOff then .ok .autoIncOff
  else if c = 0x87#8 then .ok .displayOff
  else if c.extractLsb' 3 5 = 0b10001#5 then .ok (.displayOn (c.extractLsb' 0 3))
  else .error (.unknownCommand c)

/-- Decode the bytes of a frame by its first byte (30_encoding.md R117; 20_memory.md R81). -/
def decodeFrame (bytes : List Byte) : Except Reject Instr :=
  match bytes with
  | [] => .error .emptyFrame
  | c :: data =>
    if isAddress c then
      .ok (if c.getLsbD 0 then .addrLamp (c.extractLsb' 1 3) data else .addrGrid (c.extractLsb' 1 3) data)
    else if data.isEmpty then decodeCommand c
    else .error (.strayData c)

/-- Decode either encoding. -/
def decode (c : Code) : Except Reject Instr :=
  match c with
  | .request w => decodeRequest w
  | .frame bytes => decodeFrame bytes

/-! ### The encoder -/

/-- The code of an instruction (30_encoding.md R102, R103, R110 to R112). -/
def encode : Instr → Code
  | .reset => .request (wordHN 0x01#8)
  | .setBright level => .request (wordHA 0x02#8 level)
  | .setLamp num on => .request (wordHL 0x03#8 num on)
  | .getLamp num => .request (wordHA 0x04#8 num)
  | .setGrid pos code dp => .request (wordHG 0x05#8 pos code dp)
  | .clearGrid pos => .request (wordHA 0x06#8 pos)
  | .clear => .request (wordHN 0x07#8)
  | .showNum value dpPos start => .request (wordHS 0x08#8 value dpPos start)
  | .gauge g1 g2 g3 g4 g5 => .request (wordHV 0x09#8 g1 g2 g3 g4 g5)
  | .scan => .request (wordHN 0x0A#8)
  | .autoIncOn => .frame [cmdAutoIncOn]
  | .keyScan => .frame [cmdKeyScan]
  | .autoIncOff => .frame [cmdAutoIncOff]
  | .displayOff => .frame [cmdDisplay 0]
  | .displayOn levelMinus1 => .frame [cmdDisplay (levelMinus1.toNat + 1)]
  | .addrGrid posMinus1 data => .frame (gridByte posMinus1 :: data)
  | .addrLamp posMinus1 data => .frame (lampByte posMinus1 :: data)

/-! ### The opcode table -/

/-- One row of the opcode table over words of n bits: a word is the row's if its masked bits are the pattern. -/
structure TableRow (n : Nat) where
  mnemonic : String
  pattern : BitVec n
  mask : BitVec n
  deriving DecidableEq, Repr

/-- The word is one of the row's. -/
def TableRow.covers {n : Nat} (r : TableRow n) (w : BitVec n) : Bool := w &&& r.mask == r.pattern

/-- No word is one of both rows: some bit that both masks fix has two values. -/
def TableRow.apart {n : Nat} (r q : TableRow n) : Bool :=
  r.pattern &&& (r.mask &&& q.mask) != q.pattern &&& (r.mask &&& q.mask)

/-- The ten host request rows of spec/opcode_table.json. -/
def requestTable : List (TableRow 64) :=
  [⟨"RESET", 0x0100000000000000#64, 0xFFFFFFFFFFFFFFFF#64⟩,
   ⟨"SETBRIGHT", 0x0200000000000000#64, 0xFFFFFFFFFFFFFF00#64⟩,
   ⟨"SETLAMP", 0x0300000000000000#64, 0xFFFFFFFFFFFFFE00#64⟩,
   ⟨"GETLAMP", 0x0400000000000000#64, 0xFFFFFFFFFFFFFF00#64⟩,
   ⟨"SETGRID", 0x0500000000000000#64, 0xFFFFFFFFFFFE0000#64⟩,
   ⟨"CLEARGRID", 0x0600000000000000#64, 0xFFFFFFFFFFFFFF00#64⟩,
   ⟨"CLEAR", 0x0700000000000000#64, 0xFFFFFFFFFFFFFFFF#64⟩,
   ⟨"SHOWNUM", 0x0800000000000000#64, 0xFFFF000000000000#64⟩,
   ⟨"GAUGE", 0x0900000000000000#64, 0xFFFFFF0000000000#64⟩,
   ⟨"SCAN", 0x0A00000000000000#64, 0xFFFFFFFFFFFFFFFF#64⟩]

/-- The seven bus command rows of spec/opcode_table.json. -/
def commandTable : List (TableRow 8) :=
  [⟨"AUTOINC_ON", 0x40#8, 0xFF#8⟩,
   ⟨"KEY_SCAN", 0x42#8, 0xFF#8⟩,
   ⟨"AUTOINC_OFF", 0x44#8, 0xFF#8⟩,
   ⟨"DISPLAY_OFF", 0x87#8, 0xFF#8⟩,
   ⟨"DISPLAY_ON", 0x88#8, 0xF8#8⟩,
   ⟨"ADDR_GRID", 0xC0#8, 0xF1#8⟩,
   ⟨"ADDR_LAMP", 0xC1#8, 0xF1#8⟩]

/-! ### Words numbered as the opcode table numbers them -/

/-- The bytes of the frame whose command byte is c and whose operand bytes are zeros: an address command carries
one data byte (30_encoding.md R117), every other command none. -/
def tableFrame (c : Byte) : List Byte := if isAddress c then [c, 0x00#8] else [c]

/-- The code that a table row's word stands for: 64 bits are a request word, 8 bits a command byte. -/
def tableCode (nbits w : Nat) : Option Code :=
  if nbits = 64 then some (.request (BitVec.ofNat 64 w))
  else if nbits = 8 then some (.frame (tableFrame (BitVec.ofNat 8 w)))
  else none

/-- The instruction the decoder reads from a word numbered as spec/opcode_table.json numbers it. -/
def decodeTableWord (nbits w : Nat) : Option Instr :=
  match tableCode nbits w with
  | some c => (decode c).toOption
  | none => none

end Sys2Proof
end

