-- ==== Sys2Proof/Machine/State.lean ====
section
/-! DEFINITION. Every piece of state the spec gives the machine, as plain data: the block's registers and bus port
(10_state.md R30 to R47), the bus trace, the observer of the controller chip (20_memory.md R80) and the two
outside parties, the host with its request stream and the chip's key data. INVENTORY.md lists each with its rule. -/

namespace Sys2Proof.Machine

open Sys2Proof

/-- The order in which the bits of a byte pass the data line (20_memory.md R63). -/
inductive BitOrder where
  | lsbFirst
  | msbFirst
  deriving DecidableEq, Repr

/-- The bus events of 20_memory.md R70. -/
inductive Event where
  | stbLow
  | stbHigh
  | dirIn
  | dirOut
  | dataLow
  | tx (order : BitOrder) (b : Byte)
  | rx (order : BitOrder) (b : Byte)
  deriving DecidableEq, Repr

/-- A strobe level (10_state.md R39). -/
inductive Level where
  | low
  | high
  deriving DecidableEq, Repr

/-- The direction of the data line, seen from the block (10_state.md R39). -/
inductive Direction where
  | input
  | output
  deriving DecidableEq, Repr

/-- The last level the block drove on the data line (10_state.md R39). -/
inductive DataLevel where
  | low
  | unknown
  deriving DecidableEq, Repr

/-- The bus port (10_state.md R39). The spec gives the data level two accounts, which differ when bytes follow a
`DataLow`; the port holds each as the rules of that account say (log 10). -/
structure Port where
  stb : Level
  dir : Direction
  /-- The data level after every event: a byte written makes it UNKNOWN (10_state.md R39, 20_memory.md R70, 40_framer.md
  R141). -/
  dio : DataLevel
  /-- The data level last set by itself: LOW once a SCAN has set it, and unchanged by RESET (10_state.md R45,
  70_reset_and_hazards.md R331). -/
  dioSet : DataLevel
  deriving DecidableEq, Repr

/-- The four bytes of a scan (10_state.md R41). -/
structure ScanBytes where
  b0 : Byte
  b1 : Byte
  b2 : Byte
  b3 : Byte
  deriving DecidableEq, Repr

/-- The chip registers: (address, byte) cells by rising address. A register that is not listed is UNKNOWN. -/
abbrev Memory := List Host.Cell

/-- The observer's address mode (20_memory.md R80). -/
inductive AddressMode where
  | auto
  | fixed
  | unknown
  deriving DecidableEq, Repr

/-- The observer's display setting; a level is 1..8 (20_memory.md R80). -/
inductive Display where
  | off
  | level (l : Nat)
  | unknown
  deriving DecidableEq, Repr

/-- The observer of the controller chip (20_memory.md R80). `none` is UNKNOWN in `ptr` and in `keys`. -/
structure Observer where
  mode : AddressMode
  ptr : Option Nat
  ram : Memory
  display : Display
  keys : Option Bool
  deriving DecidableEq, Repr

/-- The observer with every field UNKNOWN (20_memory.md R80, R86). -/
def Observer.allUnknown : Observer :=
  { mode := .unknown, ptr := none, ram := [], display := .unknown, keys := none }

/-- The fault reasons of 60_exceptions.md R302, each with the request word it records. A request that fails
acceptance puts one into `State.fault`, which is a next state (R304). From then on the machine stops with it:
every request's meaning and every step that would take a request answer `Outcome.fault` (R303, R304). Both are
safe: nothing is said of the run after the fault. -/
inductive Fault where
  /-- Raised by `fetch` for a word that is no request (30_encoding.md R105, R106). Safe: the hardware has no binary
  request, and nothing is claimed of such a word. -/
  | illegalRequest (w : RequestWord)
  /-- Raised by every request but RESET while `init` is 0 (10_state.md R37). Safe: the real block would emit frames,
  of which the model claims nothing. -/
  | notInitialized (w : RequestWord)
  deriving DecidableEq, Repr

/-- Why the model has no meaning for an instruction. -/
inductive Refusal where
  /-- Answered by `exec` for an instruction without a meaning. No arm of this model answers it. Safe. -/
  | notModelled (mnemonic : String)
  deriving DecidableEq, Repr

/-- The machine. -/
structure State where
  /-- The lamp mirror; `none` is the power-on state "holds no value" (10_state.md R31, R46). -/
  lampMask : Option Byte
  /-- Is the chip in sequential-address write mode; `none` is "holds no value" (10_state.md R32, R46). -/
  autoIncrement : Option Bool
  /-- A RESET has completed (10_state.md R37). -/
  init : Bool
  /-- The fault register, sticky (10_state.md R38). -/
  fault : Option Fault
  /-- The bus port (10_state.md R39). -/
  port : Port
  /-- The scan buffer, which holds a value during a SCAN only (10_state.md R41). -/
  scanBuffer : Option ScanBytes
  /-- The events of the trace that the observer has read, oldest first (10_state.md R43; log 4). -/
  busRead : List Event
  /-- The events of the trace that the observer has not read yet, oldest first (10_state.md R43; log 4). -/
  busUnread : List Event
  /-- The controller chip's observer (10_state.md R44). -/
  obs : Observer
  /-- The request words the host has still to issue, next first (20_memory.md R73; log 3). -/
  requests : List RequestWord
  /-- The index of the host's next request (10_state.md R35; log 3). -/
  reqIndex : Nat
  /-- The responses the host has received, oldest first (30_encoding.md R109; log 3). -/
  responses : List Response
  /-- The key bytes the chip will return, next first (20_memory.md R79; log 9). -/
  keyBytes : List Byte
  /-- How many draws have been made (20_memory.md R79; log 9). -/
  draws : Nat
  deriving DecidableEq, Repr

/-- The port at launch (10_state.md R39, R46). -/
def Port.launch : Port := { stb := .high, dir := .output, dio := .unknown, dioSet := .unknown }

/-- Power-on (70_reset_and_hazards.md R330; log 1), with no request placed (log 3) and no key byte given (log 9). -/
def State.reset : State :=
  { lampMask := none, autoIncrement := none, init := false, fault := none, port := Port.launch,
    scanBuffer := none, busRead := [], busUnread := [], obs := Observer.allUnknown, requests := [], reqIndex := 0,
    responses := [], keyBytes := [], draws := 0 }

end Sys2Proof.Machine
end

