-- ==== Sys2Proof/Machine/Memory.lean ====
section
/-! DEFINITION. The chip register space as the observer holds it (20_memory.md R60, R61, R80): reading a register,
writing one, and the canonical form of the list of cells. -/

namespace Sys2Proof.Machine

open Sys2Proof

/-- The address is one of the registers 0xC0..0xCF (20_memory.md R61). -/
def isRegister (addr : Nat) : Bool := decide (regBase ≤ addr ∧ addr < regBase + regCount)

/-- Read a register; `none` is UNKNOWN (20_memory.md R80). What an unlisted address reads as is decided here. -/
def Memory.read : Memory → Nat → Option Byte
  | [], _ => none
  | (a, b) :: m, addr => if a = addr then some b else Memory.read m addr

/-- Write a register, keeping the cells in rising order (20_memory.md R84). -/
def Memory.write : Memory → Nat → Byte → Memory
  | [], addr, d => [(addr, d)]
  | (a, b) :: m, addr, d =>
    if addr < a then (addr, d) :: (a, b) :: m
    else if addr = a then (addr, d) :: m
    else (a, b) :: Memory.write m addr d

/-- The canonical form: addresses strictly rise, and every one is a register. -/
abbrev Memory.wf (m : Memory) : Prop :=
  m.Pairwise (fun c c' => c.1 < c'.1) ∧ ∀ c ∈ m, isRegister c.1 = true

end Sys2Proof.Machine
end

