-- ==== Sys2Proof/Machine/Flags.lean ====
section
/-! DEFINITION. The block has no condition codes and no request sets a flag (10_state.md R36). Its one-bit data are
the bits of the lamp mirror (R31) and the decimal point bit of a segment byte (30_encoding.md R114): this file
reads and writes those. -/

namespace Sys2Proof.Machine

open Sys2Proof

/-- The lamp mirror with bit i made `on` and the other seven bits kept (42_device_ops.md R210). -/
def withLampBit (mask : Byte) (i : Nat) (on : Bool) : Byte :=
  if on then mask ||| (1#8 <<< i) else mask &&& ~~~(1#8 <<< i)

/-- Bit i of the lamp mirror as a 32-bit response, 1 = lit (30_encoding.md R109). -/
def lampResponse (mask : Byte) (i : Nat) : Response := if mask.getLsbD i then 1#32 else 0#32

/-- The lamp byte, 0x01 for lit and 0x00 for unlit (30_encoding.md R113). -/
def lampData (on : Bool) : Byte := if on then 0x01#8 else 0x00#8

/-- The decimal point bit, bit 7, if asked for (30_encoding.md R114). -/
def pointBit (dp : Bool) : Byte := if dp then 0x80#8 else 0x00#8

end Sys2Proof.Machine
end

