-- ==== Sys2Proof/Machine/Operands.lean ====
section
/-! DEFINITION. Operand assembly (30_encoding.md R104) and the pure functions of the operands: clamping, the address
calculator and the font table (41_lookup.md), the decimal text of a number (43_grid_ops.md R239), the gauge
renderer (44_gauge.md R261) and the scan decode (45_scan.md R280). None reads or writes state; FONT and GAUGE_SEG
are arguments. -/

namespace Sys2Proof.Machine

open Sys2Proof

/-! ### Operand assembly -/

/-- An 8-bit field as an unsigned integer (30_encoding.md R104). -/
def unsignedOperand (b : Byte) : Int := (b.toNat : Int)

/-- The VALUE field as a signed integer (30_encoding.md R104). -/
def signedOperand (v : BitVec 32) : Int := v.toInt

/-! ### Clamping -/

/-- 41_lookup.md R170. -/
def clamp (lo hi v : Int) : Int := if v < lo then lo else if hi < v then hi else v

/-- The position or lamp number 1..8 (41_lookup.md R171). -/
def clampPos (n : Int) : Nat := (clamp 1 8 n).toNat

/-- The brightness level 0..8 (41_lookup.md R180). -/
def clampBright (l : Int) : Nat := (clamp 0 8 l).toNat

/-! ### Address calculator -/

/-- The address of the grid register of position n (41_lookup.md R172). -/
def gridAddr (n : Int) : Byte := BitVec.ofNat 8 (regBase + (clampPos n - 1) * 2)

/-- The address of the lamp register of position n (41_lookup.md R173). -/
def lampAddr (n : Int) : Byte := BitVec.ofNat 8 (regBase + 1 + (clampPos n - 1) * 2)

/-! ### Font table -/

/-- MINUS_CODE (30_encoding.md R115). -/
def minusCode : Nat := 16

/-- BLANK_CODE (30_encoding.md R115). -/
def blankCode : Nat := 17

/-- FONT[code] for code in 0..17: the seven segment bits of codes 0 to 16, bit 7 clear, and the blank (41_lookup.md R176). -/
def fontEntry (font : Font) (code : Nat) : Byte :=
  match font.segments[code]? with
  | some segments => segments.setWidth 8
  | none => 0x00#8

/-- The segment byte of a symbol code, the blank pattern outside 0..17 (41_lookup.md R175). -/
def symbolToSegments (font : Font) (code : Nat) : Byte :=
  if code ≤ blankCode then fontEntry font code else 0x00#8

/-- The default FONT, from general knowledge (41_lookup.md R177, 93 G2): the value the vectors of 95_test_vectors.md
assume. No meaning uses it. -/
def defaultFont : Font :=
  { segments := #v[0x3F#7, 0x06#7, 0x5B#7, 0x4F#7, 0x66#7, 0x6D#7, 0x7D#7, 0x07#7, 0x7F#7, 0x6F#7, 0x77#7, 0x7C#7,
      0x39#7, 0x5E#7, 0x79#7, 0x71#7, 0x40#7] }

/-- The segment byte of a symbol with or without its decimal point (43_grid_ops.md R230). -/
def segmentByte (font : Font) (code : Nat) (dp : Bool) : Byte := symbolToSegments font code ||| pointBit dp

/-! ### Decimal text -/

/-- The decimal digits of u, first digit first, if u has at most `fuel + 1` of them (43_grid_ops.md R239). -/
def digitsWithin : Nat → Nat → List Nat
  | 0, u => [u]
  | fuel + 1, u => if u < 10 then [u] else digitsWithin fuel (u / 10) ++ [u % 10]

/-- digits(u) of 43_grid_ops.md R239: a number has no more decimal digits than binary ones. -/
def digits (u : Nat) : List Nat := digitsWithin u.log2 u

/-- decimalText(v) of 43_grid_ops.md R239, as symbol codes. -/
def decimalText (v : Int) : List Nat := if v < 0 then minusCode :: digits (-v).toNat else digits v.toNat

/-! ### Register writes of the requests that write several registers -/

/-- One register write: the address byte and the data byte (40_framer.md R143). -/
abbrev RegWrite := Byte × Byte

/-- The positions 1..8 in ascending order (43_grid_ops.md R236, 44_gauge.md R262). -/
def positions : List Nat := [1, 2, 3, 4, 5, 6, 7, 8]

/-- CLEAR's writes (43_grid_ops.md R236). -/
def clearWrites (font : Font) : List RegWrite :=
  positions.map (fun (p : Nat) => (gridAddr (p : Int), symbolToSegments font blankCode))

/-- SHOWNUM's loop from character number i (43_grid_ops.md R242): `text` is what is left of the text, s the clamped
start position; the loop stops at the end of the text or after position 8. -/
def showNumLoop (font : Font) (dpPos s : Nat) : Nat → List Nat → List RegWrite
  | _, [] => []
  | i, code :: text =>
    if 8 < s + i - 1 then []
    else
      (gridAddr ((s + i - 1 : Nat) : Int), segmentByte font code (i == dpPos))
        :: showNumLoop font dpPos s (i + 1) text

/-- SHOWNUM's writes (43_grid_ops.md R242). -/
def showNumWrites (font : Font) (value dpPos start : Int) : List RegWrite :=
  showNumLoop font dpPos.toNat (clampPos start) 1 (decimalText value)

/-! ### Gauge renderer -/

/-- The mask if the condition holds, else nothing lit (44_gauge.md R261). -/
def litIf (c : Bool) (mask : Byte) : Byte := if c then mask else 0x00#8

/-- The segments of one 8-step gauge with level g at position c (44_gauge.md R261, step 1). -/
def eightStep (mask : Byte) (c g : Nat) : Byte := litIf (decide (c ≤ g)) mask

/-- The segments of one 16-step gauge with level g at position c (44_gauge.md R261, step 2). -/
def sixteenStep (full half : Byte) (c g : Nat) : Byte :=
  litIf (decide (c ≤ g >>> 1)) full ||| litIf (decide (g &&& 1 = 1 ∧ c - 1 = g >>> 1)) half

/-- The composite segment byte of position c (44_gauge.md R261). -/
def gaugeByte (seg : GaugeSeg) (c g1 g2 g3 g4 g5 : Nat) : Byte :=
  eightStep seg.g1 c g1 ||| eightStep seg.g3 c g3 ||| eightStep seg.g5 c g5
    ||| sixteenStep seg.g2Full seg.g2Half c g2 ||| sixteenStep seg.g4Full seg.g4Half c g4

/-- GAUGE's writes (44_gauge.md R262). -/
def gaugeWrites (seg : GaugeSeg) (g1 g2 g3 g4 g5 : Nat) : List RegWrite :=
  positions.map (fun (c : Nat) => (gridAddr (c : Int), gaugeByte seg c g1 g2 g3 g4 g5))

/-! ### Scan decode -/

/-- Byte number i of a scan, shifted as 45_scan.md R280 says. -/
def scanShift (i : Nat) (x : Byte) : Byte := if x ≠ 0#8 then x >>> i else x

/-- scanDecode of 45_scan.md R280. -/
def scanDecode (b : ScanBytes) : Response :=
  (scanShift 0 b.b0).setWidth 32 ||| (scanShift 1 b.b1).setWidth 32 ||| (scanShift 2 b.b2).setWidth 32
    ||| (scanShift 3 b.b3).setWidth 32

/-! ### Bit-level view of the byte primitives -/

/-- The bits of a written byte in time order, b[0] first (20_memory.md R64, 40_framer.md R147). -/
def txBits (b : Byte) : List Bool :=
  [b.getLsbD 0, b.getLsbD 1, b.getLsbD 2, b.getLsbD 3, b.getLsbD 4, b.getLsbD 5, b.getLsbD 6, b.getLsbD 7]

/-- The byte read from eight sampled bits in time order, the first one bit 7 (20_memory.md R64, 40_framer.md R147). -/
def rxByte (samples : List Bool) : Byte :=
  samples.foldl (fun acc bit => (acc <<< 1) ||| (BitVec.ofBool bit).setWidth 8) 0#8

end Sys2Proof.Machine
end

