-- ==== Sys2Proof/Machine/Ops.lean ====
section
/-! DEFINITION. The named operations over the state: emitting bus events and frames (20_memory.md R70, 40_framer.md),
key-scan draws (R79), responses (30_encoding.md R109), raising a fault and accepting a request (60_exceptions.md
R302 to R304), the observer's reading of a frame (20_memory.md R81 to R86), and fetching what the next step runs.
A raised fault transfers no control and there is no return from one (60_exceptions.md R307). -/

namespace Sys2Proof.Machine

open Sys2Proof

/-! ### Bus events -/

/-- The port after an event (20_memory.md R70; `dioSet` by 10_state.md R45 and 70_reset_and_hazards.md R331, log 10). -/
def Port.after (p : Port) : Event → Port
  | .stbLow => { p with stb := .low }
  | .stbHigh => { p with stb := .high }
  | .dirIn => { p with dir := .input }
  | .dirOut => { p with dir := .output }
  | .dataLow => { p with dio := .low, dioSet := .low }
  | .tx _ _ => { p with dio := .unknown }
  | .rx _ _ => p

/-- The trace: every event emitted since power-on, oldest first (10_state.md R43). -/
def State.trace (s : State) : List Event := s.busRead ++ s.busUnread

/-- Emit events in order: they are appended to the trace and the port follows them (20_memory.md R70, R72). -/
def State.emit (es : List Event) (s : State) : State :=
  { s with busUnread := s.busUnread ++ es, port := es.foldl Port.after s.port }

/-! ### The framer -/

/-- A byte written, least significant bit first (20_memory.md R63). -/
def txByte (b : Byte) : Event := .tx .lsbFirst b

/-- The events of `frame(bs)` (40_framer.md R141). -/
def frameEvents (bs : List Byte) : List Event := .stbLow :: (bs.map txByte ++ [.stbHigh])

/-- `sendCommand` (40_framer.md R142). -/
def State.sendCommand (cmd : Byte) (s : State) : State := s.emit (frameEvents [cmd])

/-- `sendWrite` (40_framer.md R143). -/
def State.sendWrite (addr data : Byte) (s : State) : State := s.emit (frameEvents [addr, data])

/-- `sendBulk` (40_framer.md R145). -/
def State.sendBulk (addr : Byte) (ds : List Byte) (s : State) : State := s.emit (frameEvents (addr :: ds))

/-- One `sendWrite` after another, in list order (40_framer.md R146). -/
def State.sendWrites (ws : List RegWrite) (s : State) : State :=
  ws.foldl (fun t w => t.sendWrite w.1 w.2) s

/-- The byte of the draw after `k` more (20_memory.md R79): the chip's next key bytes, then the free value. -/
def State.drawAhead (s : State) (k : Nat) : Byte := s.keyBytes[k]?.getD (Config.keyByte (s.draws + k))

/-- The four bytes the next scan reads (20_memory.md R79). -/
def State.nextScan (s : State) : ScanBytes := ⟨s.drawAhead 0, s.drawAhead 1, s.drawAhead 2, s.drawAhead 3⟩

/-- The events of a scan frame that reads the bytes b (40_framer.md R144). -/
def scanEvents (b : ScanBytes) : List Event :=
  [.stbLow, txByte cmdKeyScan, .dirIn, .rx .msbFirst b.b0, .rx .msbFirst b.b1, .rx .msbFirst b.b2,
    .rx .msbFirst b.b3, .dirOut, .dataLow, .stbHigh]

/-- `sendScanAndRead` (40_framer.md R144): four draws, the ten events, and the bytes in the scan buffer. -/
def State.sendScanAndRead (s : State) : State :=
  { s.emit (scanEvents s.nextScan) with
    scanBuffer := some s.nextScan, keyBytes := s.keyBytes.drop 4, draws := s.draws + 4 }

/-- End of a SCAN: the scan buffer holds a value only during it (10_state.md R41). -/
def State.dropScanBuffer (s : State) : State := { s with scanBuffer := none }

/-! ### Registers of the block and the response port -/

/-- What a request reads as the lamp mirror (10_state.md R31; log 2 for the mirror without a value). -/
def State.lampMirror (s : State) : Byte := s.lampMask.getD Config.powerOnLampMask

/-- Write the lamp mirror (10_state.md R31). -/
def State.setLampMask (mask : Byte) (s : State) : State := { s with lampMask := some mask }

/-- Write autoIncrement (10_state.md R32). -/
def State.setAutoIncrement (on : Bool) (s : State) : State := { s with autoIncrement := some on }

/-- A RESET has completed (10_state.md R37). -/
def State.setInit (s : State) : State := { s with init := true }

/-- `respond(v)` (00_scope.md R11, 30_encoding.md R109). -/
def State.respond (v : Response) (s : State) : State := { s with responses := s.responses ++ [v] }

/-! ### Faults and acceptance -/

/-- Raise a fault: the fault register is written and nothing else (60_exceptions.md R304). -/
def State.raise (f : Fault) (s : State) : State := { s with fault := some f }

/-- Acceptance of RESET: only a recorded fault stops it (60_exceptions.md R303). -/
def acceptReset (run : State → State) (s : State) : Host.Outcome State Fault Refusal :=
  match s.fault with
  | some f => .fault f
  | none => .next (run s)

/-- Acceptance of every other request, whose word is w: a recorded fault stops it, then it needs a RESET to have
completed (60_exceptions.md R303). Opcode and must-be-zero bits have been checked by the decoder. -/
def accept (w : RequestWord) (run : State → State) (s : State) : Host.Outcome State Fault Refusal :=
  match s.fault with
  | some f => .fault f
  | none => if s.init then .next (run s) else .next (s.raise (.notInitialized w))

/-! ### The observer -/

/-- The pointer after a data byte written at p (20_memory.md R84). -/
def AddressMode.pointerAfter (m : AddressMode) (p : Nat) : Option Nat :=
  match m with
  | .auto => some (p + 1)
  | .fixed => some p
  | .unknown => none

/-- One data byte of a write frame (20_memory.md R84). Outside the registers every field becomes UNKNOWN (D27, 93 I8;
log 14). -/
def Observer.writeData (o : Observer) (d : Byte) : Observer :=
  match o.ptr with
  | some p =>
    if p < regCount then { o with ram := Memory.write o.ram (regBase + p) d, ptr := o.mode.pointerAfter p }
    else Observer.allUnknown
  | none => Observer.allUnknown

/-- A write frame from register entry a (20_memory.md R84). -/
def Observer.writeFrame (a : Nat) (data : List Byte) (o : Observer) : Observer :=
  data.foldl Observer.writeData { o with ptr := some a, keys := some false }

/-- An address-mode frame (20_memory.md R82). -/
def Observer.modeFrame (m : AddressMode) (o : Observer) : Observer := { o with mode := m, keys := some false }

/-- A display frame (20_memory.md R83). -/
def Observer.displayFrame (d : Display) (o : Observer) : Observer := { o with display := d, keys := some false }

/-- A key-scan frame, after which the mode is UNKNOWN (20_memory.md R85). -/
def Observer.scanFrame (o : Observer) : Observer := { o with mode := .unknown, keys := some true }

/-- Change the observer and nothing else (20_memory.md R81). -/
def State.observe (f : Observer → Observer) (s : State) : State := { s with obs := f s.obs }

/-! ### Reading the trace frame by frame -/

/-- The bytes of the frame under way after an event, `none` outside a frame (20_memory.md R81). -/
def openFrame (pend : Option (List Byte)) : Event → Option (List Byte)
  | .stbLow => some []
  | .stbHigh => none
  | .tx _ b => pend.map (· ++ [b])
  | .rx _ _ => pend
  | .dirIn => pend
  | .dirOut => pend
  | .dataLow => pend

/-- A frame taken off the trace: the events up to its StbHigh, its Tx bytes, and the events after it. -/
structure FrameRead where
  events : List Event
  bytes : List Byte
  rest : List Event
  deriving DecidableEq, Repr

/-- The first whole frame of a list of events, `pend` holding the bytes of the frame under way (20_memory.md R81).
`none` if no frame ends in the list. -/
def takeFrame : Option (List Byte) → List Event → Option FrameRead
  | _, [] => none
  | pend, e :: es =>
    match e, pend with
    | .stbHigh, some bytes => some ⟨[.stbHigh], bytes, es⟩
    | e, pend => (takeFrame (openFrame pend e) es).map (fun f => { f with events := e :: f.events })

/-- Move a frame from the unread to the read part of the trace. -/
def State.readFrame (f : FrameRead) (s : State) : State :=
  { s with busRead := s.busRead ++ f.events, busUnread := f.rest }

/-! ### Fetching -/

/-- What the next step does: run an instruction from a state, or answer at once. -/
inductive Fetched where
  | run (i : Instr) (s : State)
  | answer (o : Host.Outcome State Fault Refusal)

/-- The observer takes a frame: its instruction, or for a frame that is none every field UNKNOWN (20_memory.md R86;
log 6). -/
def fetchFrame (f : FrameRead) (s : State) : Fetched :=
  match decode (.frame f.bytes) with
  | .ok i => .run i (s.readFrame f)
  | .error _ => .answer (.next ((s.readFrame f).observe (fun _ => Observer.allUnknown)))

/-- The host has issued the request word w and `ws` is left: its index advances by one (10_state.md R35). -/
def State.issue (ws : List RequestWord) (s : State) : State :=
  { s with requests := ws, reqIndex := s.reqIndex + 1 }

/-- The block takes the request word w: its instruction, or IllegalRequest (60_exceptions.md R303). -/
def fetchWord (w : RequestWord) (ws : List RequestWord) (s : State) : Fetched :=
  match decode (.request w) with
  | .ok i => .run i (s.issue ws)
  | .error _ => .answer (.next ((s.issue ws).raise (.illegalRequest w)))

/-- The block's turn: a recorded fault has ended the run (60_exceptions.md R304, R307); with no request waiting the
block is idle and nothing changes (log 3). -/
def fetchRequest (s : State) : Fetched :=
  match s.fault with
  | some f => .answer (.fault f)
  | none =>
    match s.requests with
    | [] => .answer (.next s)
    | w :: ws => fetchWord w ws s

/-- The observer reads a whole frame that is waiting before the block takes the next request (log 4). -/
def fetch (s : State) : Fetched :=
  match takeFrame none s.busUnread with
  | some f => fetchFrame f s
  | none => fetchRequest s

/-! ### Placing an instruction for the next step -/

/-- Put a request word where the next step takes it: the host's next word, with the observer up to date. -/
def State.placeRequest (w : RequestWord) (s : State) : State :=
  { s with busRead := s.trace, busUnread := [], requests := w :: s.requests.tail }

/-- Put a frame where the next step reads it: first in the unread part of the trace. -/
def State.placeFrame (bytes : List Byte) (s : State) : State :=
  { s with busUnread := frameEvents bytes ++ s.busUnread }

/-- Put the instruction of a table word where the next step takes it (log 12). -/
def State.placeCode (c : Option Code) (s : State) : State :=
  match c with
  | some (.request w) => s.placeRequest w
  | some (.frame bytes) => s.placeFrame bytes
  | none => s

end Sys2Proof.Machine
end

