-- ==== Sys2Proof/Machine/BusCommand.lean ====
section
/-! DEFINITION. The bus commands as the controller chip's observer reads them (20_memory.md R82 to R85). They are no
host requests, so no acceptance check stands before them and a recorded fault does not stop them. -/

namespace Sys2Proof.Machine

open Sys2Proof

/-- AUTOINC_ON, 0x40 (20_memory.md R82). -/
def execAutoIncOn (s : State) : Host.Outcome State Fault Refusal :=
  .next (s.observe (Observer.modeFrame .auto))

/-- KEY_SCAN, 0x42 (20_memory.md R85). -/
def execKeyScan (s : State) : Host.Outcome State Fault Refusal :=
  .next (s.observe Observer.scanFrame)

/-- AUTOINC_OFF, 0x44 (20_memory.md R82). -/
def execAutoIncOff (s : State) : Host.Outcome State Fault Refusal :=
  .next (s.observe (Observer.modeFrame .fixed))

/-- DISPLAY_OFF, 0x87 (20_memory.md R83). -/
def execDisplayOff (s : State) : Host.Outcome State Fault Refusal :=
  .next (s.observe (Observer.displayFrame .off))

/-- DISPLAY_ON, 0x88..0x8F (20_memory.md R83). -/
def execDisplayOn (levelMinus1 : BitVec 3) (s : State) : Host.Outcome State Fault Refusal :=
  .next (s.observe (Observer.displayFrame (.level (levelMinus1.toNat + 1))))

/-- ADDR_GRID, 0xC0 + 2k, and its data bytes (20_memory.md R84). -/
def execAddrGrid (posMinus1 : BitVec 3) (data : List Byte) (s : State) : Host.Outcome State Fault Refusal :=
  .next (s.observe (Observer.writeFrame (2 * posMinus1.toNat) data))

/-- ADDR_LAMP, 0xC1 + 2k, and its data bytes (20_memory.md R84). -/
def execAddrLamp (posMinus1 : BitVec 3) (data : List Byte) (s : State) : Host.Outcome State Fault Refusal :=
  .next (s.observe (Observer.writeFrame (2 * posMinus1.toNat + 1) data))

end Sys2Proof.Machine
end

