-- ==== Sys2Proof/Machine/Device.lean ====
section
/-! DEFINITION. The device operations RESET, SETBRIGHT, SETLAMP and GETLAMP (42_device_ops.md). -/

namespace Sys2Proof.Machine

open Sys2Proof

/-- RESET's pseudocode (42_device_ops.md R200). -/
def resetBody (s : State) : State :=
  ((((((s.setAutoIncrement true).sendCommand cmdAutoIncOn).sendBulk (BitVec.ofNat 8 regBase) bulkZeros).setLampMask
    0x00#8).setAutoIncrement false).sendCommand cmdAutoIncOff).setInit

/-- RESET (42_device_ops.md R200). -/
def execReset (s : State) : Host.Outcome State Fault Refusal := acceptReset resetBody s

/-- SETBRIGHT's pseudocode (42_device_ops.md R205). -/
def setBrightBody (level : Byte) (s : State) : State :=
  s.sendCommand (cmdDisplay (clampBright (unsignedOperand level)))

/-- SETBRIGHT (42_device_ops.md R205). -/
def execSetBright (level : Byte) (s : State) : Host.Outcome State Fault Refusal :=
  accept (wordHA 0x02#8 level) (setBrightBody level) s

/-- SETLAMP's pseudocode (42_device_ops.md R210). -/
def setLampBody (num : Byte) (on : Bool) (s : State) : State :=
  (s.setLampMask (withLampBit s.lampMirror (clampPos (unsignedOperand num) - 1) on)).sendWrite
    (lampAddr (unsignedOperand num)) (lampData on)

/-- SETLAMP (42_device_ops.md R210). -/
def execSetLamp (num : Byte) (on : Bool) (s : State) : Host.Outcome State Fault Refusal :=
  accept (wordHL 0x03#8 num on) (setLampBody num on) s

/-- GETLAMP's pseudocode (42_device_ops.md R215). -/
def getLampBody (num : Byte) (s : State) : State :=
  s.respond (lampResponse s.lampMirror (clampPos (unsignedOperand num) - 1))

/-- GETLAMP (42_device_ops.md R215). -/
def execGetLamp (num : Byte) (s : State) : Host.Outcome State Fault Refusal :=
  accept (wordHA 0x04#8 num) (getLampBody num) s

end Sys2Proof.Machine
end

