-- ==== Sys2Proof/Machine/Gauge.lean ====
section
/-! DEFINITION. GAUGE (44_gauge.md). -/

namespace Sys2Proof.Machine

open Sys2Proof

/-- GAUGE (44_gauge.md R262); the levels are not clamped (D25). -/
def execGauge (g1 g2 g3 g4 g5 : Byte) (s : State) : Host.Outcome State Fault Refusal :=
  accept (wordHV 0x09#8 g1 g2 g3 g4 g5)
    (State.sendWrites (gaugeWrites Config.gaugeSeg g1.toNat g2.toNat g3.toNat g4.toNat g5.toNat)) s

end Sys2Proof.Machine
end

