-- ==== Sys2Proof/Machine/Grid.lean ====
section
/-! DEFINITION. The grid operations SETGRID, CLEARGRID, CLEAR and SHOWNUM (43_grid_ops.md). -/

namespace Sys2Proof.Machine

open Sys2Proof

/-- SETGRID (43_grid_ops.md R230). -/
def execSetGrid (pos code : Byte) (dp : Bool) (s : State) : Host.Outcome State Fault Refusal :=
  accept (wordHG 0x05#8 pos code dp)
    (State.sendWrite (gridAddr (unsignedOperand pos)) (segmentByte Config.font code.toNat dp)) s

/-- CLEARGRID (43_grid_ops.md R233, D20). -/
def execClearGrid (pos : Byte) (s : State) : Host.Outcome State Fault Refusal :=
  accept (wordHA 0x06#8 pos)
    (State.sendWrite (gridAddr (unsignedOperand pos)) (symbolToSegments Config.font blankCode)) s

/-- CLEAR (43_grid_ops.md R236, D21). -/
def execClear (s : State) : Host.Outcome State Fault Refusal :=
  accept (wordHN 0x07#8) (State.sendWrites (clearWrites Config.font)) s

/-- SHOWNUM (43_grid_ops.md R242, D22 to D24). -/
def execShowNum (value : BitVec 32) (dpPos start : Byte) (s : State) : Host.Outcome State Fault Refusal :=
  accept (wordHS 0x08#8 value dpPos start)
    (State.sendWrites
      (showNumWrites Config.font (signedOperand value) (unsignedOperand dpPos) (unsignedOperand start))) s

end Sys2Proof.Machine
end

