-- ==== Sys2Proof/Machine/Scan.lean ====
section
/-! DEFINITION. SCAN (45_scan.md). -/

namespace Sys2Proof.Machine

open Sys2Proof

/-- The decode of what the scan buffer holds, as a response (45_scan.md R280, R282). -/
def State.respondScan (s : State) : State :=
  match s.scanBuffer with
  | some b => s.respond (scanDecode b)
  | none => s

/-- SCAN's pseudocode (45_scan.md R282). -/
def scanBody (s : State) : State := s.sendScanAndRead.respondScan.dropScanBuffer

/-- SCAN (45_scan.md R282). -/
def execScan (s : State) : Host.Outcome State Fault Refusal := accept (wordHN 0x0A#8) scanBody s

end Sys2Proof.Machine
end

