-- ==== Sys2Proof/Machine/Dispatch.lean ====
section
/-! DEFINITION. One arm per instruction: a direct call of its meaning. -/

namespace Sys2Proof.Machine

open Sys2Proof

def exec (i : Instr) (s : State) : Host.Outcome State Fault Refusal :=
  match i with
  | .reset => Sys2Proof.Machine.execReset s
  | .setBright level => Sys2Proof.Machine.execSetBright level s
  | .setLamp num on => Sys2Proof.Machine.execSetLamp num on s
  | .getLamp num => Sys2Proof.Machine.execGetLamp num s
  | .setGrid pos code dp => Sys2Proof.Machine.execSetGrid pos code dp s
  | .clearGrid pos => Sys2Proof.Machine.execClearGrid pos s
  | .clear => Sys2Proof.Machine.execClear s
  | .showNum value dpPos start => Sys2Proof.Machine.execShowNum value dpPos start s
  | .gauge g1 g2 g3 g4 g5 => Sys2Proof.Machine.execGauge g1 g2 g3 g4 g5 s
  | .scan => Sys2Proof.Machine.execScan s
  | .autoIncOn => Sys2Proof.Machine.execAutoIncOn s
  | .keyScan => Sys2Proof.Machine.execKeyScan s
  | .autoIncOff => Sys2Proof.Machine.execAutoIncOff s
  | .displayOff => Sys2Proof.Machine.execDisplayOff s
  | .displayOn levelMinus1 => Sys2Proof.Machine.execDisplayOn levelMinus1 s
  | .addrGrid posMinus1 data => Sys2Proof.Machine.execAddrGrid posMinus1 data s
  | .addrLamp posMinus1 data => Sys2Proof.Machine.execAddrLamp posMinus1 data s

end Sys2Proof.Machine
end

