-- ==== Sys2Proof/Machine/Step.lean ====
section
/-! DEFINITION. One step: fetch what comes next and run it; and placing an instruction where the next step takes it. -/

namespace Sys2Proof.Machine

open Sys2Proof

/-- One step of the machine: one whole request, or one frame read by the observer. -/
def step (s : State) : Host.Outcome State Fault Refusal :=
  match fetch s with
  | .run i t => exec i t
  | .answer o => o

/-- The state whose next step runs the instruction of a word numbered as spec/opcode_table.json numbers it (log 12). -/
def State.withFetchWord (s : State) (nbits w : Nat) : State := s.placeCode (tableCode nbits w)

end Sys2Proof.Machine
end

