-- ==== Sys2Proof/Safety.lean ====
section
/-! DEFINITION. What a safe run is, in the terms the statements use: the state no fault has ended, the rules every
bus trace obeys, the reading of a trace by the observer event by event, and the invariant of the machine. -/

namespace Sys2Proof.Machine

open Sys2Proof

/-- The run has not ended in a fault (60_exceptions.md R304). -/
abbrev State.Running (s : State) : Prop := s.fault = none

/-- The block accepts any request: no fault is recorded and a RESET has completed (60_exceptions.md R303). -/
abbrev State.Ready (s : State) : Prop := s.fault = none ∧ s.init = true

/-! ### Words of the statements -/

/-- The position 1..8 that an 8-bit operand names: 0 is treated as 1 and 9..255 as 8 (41_lookup.md R171). -/
def positionOf (b : Byte) : Nat := max 1 (min b.toNat 8)

/-- The four events of one register write (95_test_vectors.md, `A<-d`). -/
def writeEvents (addr data : Byte) : List Event := [.stbLow, .tx .lsbFirst addr, .tx .lsbFirst data, .stbHigh]

/-- The bus address of the grid register of position p (20_memory.md R61). -/
def gridRegister (p : Nat) : Nat := 0xC0 + 2 * (p - 1)

/-- The bus address of the lamp register of position p (20_memory.md R61). -/
def lampRegister (p : Nat) : Nat := 0xC1 + 2 * (p - 1)

/-- The state after some write frames with these events, and nothing else, were sent: the trace is longer, the strobe
is HIGH and the data level is UNKNOWN after a byte out (20_memory.md R70, 40_framer.md R141). -/
def State.afterSending (es : List Event) (s : State) : State :=
  { s with busUnread := s.busUnread ++ es, port := { s.port with stb := .high, dio := .unknown } }

/-! ### Legal traces -/

/-- The event may come next at a port in state p: a byte is written only with the strobe low, the line an output and
the least significant bit first, and read only with the strobe low, the line an input and the most significant bit
first; a frame begins and ends with the line an output (20_memory.md R63; 40_framer.md R140, R148, R149). -/
def Event.legal (p : Port) : Event → Bool
  | .stbLow => p.stb == .high && p.dir == .output
  | .stbHigh => p.stb == .low && p.dir == .output
  | .dirIn => p.stb == .low && p.dir == .output
  | .dirOut => p.stb == .low && p.dir == .input
  | .dataLow => p.stb == .low && p.dir == .output
  | .tx order _ => p.stb == .low && p.dir == .output && order == .lsbFirst
  | .rx order _ => p.stb == .low && p.dir == .input && order == .msbFirst

/-- The port after a list of events, if each of them is legal where it comes. -/
def replay (p : Port) : List Event → Option Port
  | [] => some p
  | e :: es => if e.legal p then replay (p.after e) es else none

/-! ### The observer's reading, event by event -/

/-- What a frame with these Tx bytes does to the observer, by the value of its first byte (20_memory.md R82 to R86).
The decoder of Decode.lean is not used here. -/
def readBytes (bytes : List Byte) (o : Observer) : Observer :=
  match bytes with
  | [] => Observer.allUnknown
  | c :: data =>
    if 0xC0 ≤ c.toNat ∧ c.toNat ≤ 0xCF then o.writeFrame (c.toNat - 0xC0) data
    else if data ≠ [] then Observer.allUnknown
    else if c.toNat = 0x40 then o.modeFrame .auto
    else if c.toNat = 0x44 then o.modeFrame .fixed
    else if c.toNat = 0x42 then o.scanFrame
    else if c.toNat = 0x87 then o.displayFrame .off
    else if 0x88 ≤ c.toNat ∧ c.toNat ≤ 0x8F then o.displayFrame (.level (c.toNat - 0x87))
    else Observer.allUnknown

/-- The observer after one more event; the first component holds the bytes of the frame under way (20_memory.md R81). -/
def observeEvent (x : Option (List Byte) × Observer) (e : Event) : Option (List Byte) × Observer :=
  match e, x.1 with
  | .stbHigh, some bytes => (none, readBytes bytes x.2)
  | e, pend => (openFrame pend e, x.2)

/-- The observer after a list of events that begins outside a frame. -/
def observeAll (es : List Event) (o : Observer) : Option (List Byte) × Observer := es.foldl observeEvent (none, o)

/-- The Tx bytes of the whole frames of a list of events, in order; `pend` is the frame under way (20_memory.md R81). -/
def framesOf : Option (List Byte) → List Event → List (List Byte)
  | _, [] => []
  | pend, e :: es =>
    match e, pend with
    | .stbHigh, some bytes => bytes :: framesOf none es
    | e, pend => framesOf (openFrame pend e) es

/-! ### The invariant -/

/-- The display setting is OFF, LEVEL(1..8) or UNKNOWN (20_memory.md R80). -/
def Display.legal : Display → Bool
  | .off => true
  | .level l => decide (1 ≤ l ∧ l ≤ 8)
  | .unknown => true

/-- What every state between two requests satisfies (10_state.md R32, R41, R43, R44, R47; 20_memory.md R80). -/
structure State.Inv (s : State) : Prop where
  /-- The strobe is HIGH between requests (40_framer.md R149). -/
  strobeHigh : s.port.stb = .high
  /-- The data line is an output between requests (40_framer.md R148). -/
  lineOutput : s.port.dir = .output
  /-- The scan buffer holds no value outside a SCAN (10_state.md R41). -/
  noScanBuffer : s.scanBuffer = none
  /-- autoIncrement is true only inside a RESET (10_state.md R32). -/
  noAutoIncrement : s.autoIncrement ≠ some true
  /-- After a RESET the mirror holds a value and autoIncrement is 0 (10_state.md R47). -/
  afterReset : s.init = true → s.lampMask.isSome = true ∧ s.autoIncrement = some false
  /-- The chip registers are in canonical form. -/
  ramWf : Memory.wf s.obs.ram
  /-- The display setting is a legal one (20_memory.md R80). -/
  displayLegal : s.obs.display.legal = true
  /-- Every event of the trace was legal, and the port is what the trace made it (10_state.md R39). -/
  traceLegal : replay Port.launch s.trace = some s.port
  /-- The observer is the reading of the part of the trace it has read (20_memory.md R80 to R86). -/
  observerReads : observeAll s.busRead Observer.allUnknown = (none, s.obs)

end Sys2Proof.Machine
end

