-- ==== Sys2Proof/Certificates/Slice0/Obligations.lean ====
section
/-! DEFINITION. The statements for the provers. Each docstring names the rule of spec/ it formalises, and where a
clause is the model's or the spec's own choice, the log entry or the decision. -/

open Sys2Proof Sys2Proof.Machine

/-! ### Encoding -/

/-- 30_encoding.md sections 1 and 2: decoding what the encoder writes gives the instruction back, with every operand at
every value. -/
def Obligations.DecodeOfEncode : Prop := ∀ i : Instr, decode (encode i) = .ok i

/-- 30_encoding.md sections 1 and 2: a code that decodes is the one code of its instruction, so no bit is ignored. -/
def Obligations.EncodeOfDecode : Prop := ∀ (c : Code) (i : Instr), decode c = .ok i → encode i = c

/-- 30_encoding.md R102, R103, R105, R106 and opcode_table.json: a request word decodes exactly if it is a word of one
of the ten rows (masked by the row's mask it is the row's pattern). The words and formats are the spec's own, D2, D4. -/
def Obligations.RequestWordsAreTableWords : Prop :=
  ∀ w : RequestWord, (∃ i, decode (.request w) = .ok i) ↔ ∃ r ∈ requestTable, w &&& r.mask = r.pattern

/-- 95_test_vectors.md sections 1 and 2 and opcode_table.json: words written out there decode as they say. -/
def Obligations.SampleWordsDecode : Prop :=
  decodeTableWord 64 0x0100000000000000 = some .reset ∧
  decodeTableWord 64 0x0300000000000103 = some (.setLamp 3#8 true) ∧
  decodeTableWord 64 0x0500000000010803 = some (.setGrid 3#8 8#8 true) ∧
  decodeTableWord 64 0x08000102FFFFFFD6 = some (.showNum (-42#32) 2#8 1#8) ∧
  decodeTableWord 64 0x0900000607020F04 = some (.gauge 4#8 15#8 2#8 7#8 6#8) ∧
  decodeTableWord 64 0x0A00000000000001 = none ∧
  decodeTableWord 8 0x8C = some (.displayOn 4#3) ∧
  decodeTableWord 8 0xC5 = some (.addrLamp 2#3 [0#8])

/-- 30_encoding.md R110 to R112 and 20_memory.md R61: the display command of level l and the address byte of register
entry a, by their numeric values, decode to the right command; a even is a grid register, a odd a lamp register. -/
def Obligations.CommandBytesDecode : Prop :=
  (∀ l : Nat, l ≤ 8 →
    decode (.frame [BitVec.ofNat 8 (0x87 + l)])
      = .ok (if l = 0 then .displayOff else .displayOn (BitVec.ofNat 3 (l - 1)))) ∧
  (∀ (a : Nat) (data : List Byte), a < 16 →
    decode (.frame (BitVec.ofNat 8 (0xC0 + a) :: data))
      = .ok (if a % 2 = 0 then .addrGrid (BitVec.ofNat 3 (a / 2)) data else .addrLamp (BitVec.ofNat 3 (a / 2)) data)) ∧
  decode (.frame [0x40#8]) = .ok .autoIncOn ∧ decode (.frame [0x42#8]) = .ok .keyScan ∧
  decode (.frame [0x44#8]) = .ok .autoIncOff

/-! ### Power-on and the step -/

/-- 70_reset_and_hazards.md R330 and 20_memory.md R80 (the spec's own D11, D12, D27): the machine at power-on. The
empty request stream and key bytes are the model's (log 3, log 9) and are not stated. -/
def Obligations.PowerOnState : Prop :=
  State.reset.lampMask = none ∧ State.reset.autoIncrement = none ∧ State.reset.init = false ∧
  State.reset.fault = none ∧
  State.reset.port = { stb := .high, dir := .output, dio := .unknown, dioSet := .unknown } ∧
  State.reset.scanBuffer = none ∧ State.reset.trace = [] ∧
  State.reset.obs.mode = .unknown ∧ State.reset.obs.ptr = none ∧ State.reset.obs.display = .unknown ∧
  State.reset.obs.keys = none ∧ ∀ addr, Memory.read State.reset.obs.ram addr = none

/-- The model's step (log 4), over 20_memory.md R73 and R81: a whole frame waiting on the trace is read first, and
the step is exec of the command it decodes to after the frame has moved to the read part; with no frame waiting and no
fault, the step is exec of the request that the host's next word decodes to, after the host's index has advanced. -/
def Obligations.StepRunsDecodedInstruction : Prop :=
  (∀ (s : State) (f : FrameRead) (i : Instr), takeFrame none s.busUnread = some f → decode (.frame f.bytes) = .ok i →
    step s = exec i { s with busRead := s.busRead ++ f.events, busUnread := f.rest }) ∧
  (∀ (s : State) (w : RequestWord) (ws : List RequestWord) (i : Instr), takeFrame none s.busUnread = none →
    s.fault = none → s.requests = w :: ws → decode (.request w) = .ok i →
    step s = exec i { s with requests := ws, reqIndex := s.reqIndex + 1 })

/-- 60_exceptions.md R302 to R304, 30_encoding.md R105, R106 (the spec's own D4, D28): a word that is in no row of the
opcode table raises IllegalRequest, which records it, whether or not a RESET has run; only the fault register and
the host's stream change. -/
def Obligations.IllegalWordRaisesIllegalRequest : Prop :=
  ∀ (s : State) (w : RequestWord) (ws : List RequestWord), takeFrame none s.busUnread = none → s.fault = none →
    s.requests = w :: ws → (∀ r ∈ requestTable, w &&& r.mask ≠ r.pattern) →
    step s = .next { s with requests := ws, reqIndex := s.reqIndex + 1, fault := some (.illegalRequest w) }

/-- 60_exceptions.md R302 to R304 (the spec's own D10, D28): before the first RESET every other request raises
NotInitialized, which records its word, and changes nothing else. -/
def Obligations.RequestBeforeResetRaisesNotInitialized : Prop :=
  ∀ (s : State) (i : Instr), i.isRequest = true → i ≠ .reset → s.fault = none → s.init = false →
    ∃ w, encode i = .request w ∧ exec i s = .next { s with fault := some (.notInitialized w) }

/-- 60_exceptions.md R303, R304 (the spec's own D28): after a fault no request executes, RESET included, and the block
takes no further word. -/
def Obligations.FaultStopsEveryRequest : Prop :=
  ∀ (s : State) (f : Fault), s.fault = some f →
    (∀ i : Instr, i.isRequest = true → exec i s = .fault f) ∧ (takeFrame none s.busUnread = none → step s = .fault f)

/-- 60_exceptions.md R304, 10_state.md R38 (the spec's own D28): no step clears or changes a recorded fault. -/
def Obligations.FaultIsSticky : Prop :=
  ∀ (s t : State) (f : Fault), s.fault = some f → step s = .next t → t.fault = some f

/-- 10_state.md R35 (the spec's own D18): a step that takes a request word advances the host's index by exactly one,
also where the request faults; every other step leaves index and stream. -/
def Obligations.StepAdvancesRequestIndexByOne : Prop :=
  ∀ s t : State, step s = .next t →
    (t.requests = s.requests ∧ t.reqIndex = s.reqIndex) ∨ (∃ w, s.requests = w :: t.requests ∧ t.reqIndex = s.reqIndex + 1)

/-- The model's choice (log 3), over 70_reset_and_hazards.md R345: with nothing to do the block is idle. -/
def Obligations.IdleStepChangesNothing : Prop :=
  ∀ s : State, takeFrame none s.busUnread = none → s.fault = none → s.requests = [] → step s = .next s

/-- 20_memory.md R86 (the spec's own D27) and log 6: a frame that is no command makes every observer field UNKNOWN. -/
def Obligations.UnknownFrameMakesObserverUnknown : Prop :=
  ∀ (s : State) (f : FrameRead) (r : Reject), takeFrame none s.busUnread = some f → decode (.frame f.bytes) = .error r →
    step s = .next { s with
      busRead := s.busRead ++ f.events
      busUnread := f.rest
      obs := { mode := .unknown, ptr := none, ram := [], display := .unknown, keys := none } }

/-! ### The requests -/

/-- 42_device_ops.md R200: RESET's 25 events, the mirror zeroed, autoIncrement 0, init 1, all else kept; it runs whether
or not a RESET has run before. The level `dioSet` is kept with all else; the level `dio` that its frames leave is not
stated here (log 10). After the observer has read its three frames every register holds 0x00, the mode is FIXED and the
display setting is what it was. -/
def Obligations.ResetInitializesBlockAndChip : Prop :=
  ∀ s : State, s.fault = none →
    ∃ (t : State) (dio : DataLevel), exec .reset s = .next t ∧
      t = { s.afterSending
              ([.stbLow, .tx .lsbFirst 0x40#8, .stbHigh, .stbLow, .tx .lsbFirst 0xC0#8]
                ++ List.replicate 16 (.tx .lsbFirst 0x00#8)
                ++ [.stbHigh, .stbLow, .tx .lsbFirst 0x44#8, .stbHigh]) with
            port := { s.port with stb := .high, dio := dio }
            lampMask := some 0x00#8
            autoIncrement := some false
            init := true } ∧
      (s.busUnread = [] → ∃ u : State, Host.Core.run Sys2Proof.core 3 t = .next u ∧ u.busUnread = [] ∧
        u.obs.mode = .fixed ∧ u.obs.display = s.obs.display ∧
        ∀ addr, 0xC0 ≤ addr ∧ addr ≤ 0xCF → Memory.read u.obs.ram addr = some 0x00#8)

/-- 42_device_ops.md R205: SETBRIGHT sends 0x87 + min level 8 and changes no block state; the chip's display is then OFF
for level 0, else that level. -/
def Obligations.SetBrightSendsDisplayCommand : Prop :=
  ∀ (s : State) (level : Byte), s.Ready →
    ∃ t, exec (.setBright level) s = .next t ∧
      t = s.afterSending [.stbLow, .tx .lsbFirst (BitVec.ofNat 8 (0x87 + min level.toNat 8)), .stbHigh] ∧
      (s.busUnread = [] → ∃ u : State, Host.Core.run Sys2Proof.core 1 t = .next u ∧ u.busUnread = [] ∧
        u.obs.display = (if level = 0#8 then .off else .level (min level.toNat 8)) ∧ u.obs.ram = s.obs.ram)

/-- 42_device_ops.md R210: SETLAMP sets bit n-1 of the mirror to `on` and keeps the other seven, sends the lamp byte to
the lamp register of position n whatever the mirror held, and nothing else changes; the chip's register then holds the
byte and every other register what it held. -/
def Obligations.SetLampWritesMirrorAndRegister : Prop :=
  ∀ (s : State) (num : Byte) (on : Bool), s.Ready →
    ∃ t mask, exec (.setLamp num on) s = .next t ∧
      (∀ i, i < 8 → mask.getLsbD i = if i = positionOf num - 1 then on else s.lampMirror.getLsbD i) ∧
      t = { s.afterSending
              (writeEvents (BitVec.ofNat 8 (lampRegister (positionOf num))) (if on then 0x01#8 else 0x00#8)) with
            lampMask := some mask } ∧
      (s.busUnread = [] → ∃ u : State, Host.Core.run Sys2Proof.core 1 t = .next u ∧
        u.busUnread = [] ∧ u.obs.display = s.obs.display ∧
        ∀ addr, Memory.read u.obs.ram addr
          = if addr = lampRegister (positionOf num) then some (if on then 0x01#8 else 0x00#8)
            else Memory.read s.obs.ram addr)

/-- 42_device_ops.md R215: GETLAMP answers bit n-1 of the mirror and touches neither the bus nor any register. -/
def Obligations.GetLampAnswersMirrorBit : Prop :=
  ∀ (s : State) (num : Byte), s.Ready →
    exec (.getLamp num) s
      = .next { s with responses := s.responses ++ [if s.lampMirror.getLsbD (positionOf num - 1) then 1#32 else 0#32] }

/-- 42_device_ops.md R210, R215 and 95_test_vectors.md L1-3: after a SETLAMP, GETLAMP of the same lamp answers what was
set and GETLAMP of another lamp answers what it answered before. -/
def Obligations.GetLampAfterSetLamp : Prop :=
  ∀ (s t : State) (num other : Byte) (on : Bool), s.Ready → exec (.setLamp num on) s = .next t →
    exec (.getLamp other) t
      = .next { t with
          responses := t.responses ++
            [if positionOf other = positionOf num then (if on then 1#32 else 0#32)
             else if s.lampMirror.getLsbD (positionOf other - 1) then 1#32 else 0#32] }

/-- 43_grid_ops.md R230: SETGRID sends the segment byte of the symbol, with bit 7 set if the point is asked for, to the
grid register of the clamped position; no block state changes; bit 7 of the byte is the point exactly (D8). -/
def Obligations.SetGridWritesSegmentByte : Prop :=
  ∀ (s : State) (pos code : Byte) (dp : Bool), s.Ready →
    ∃ seg : Byte, seg = symbolToSegments Config.font code.toNat ||| (if dp then 0x80#8 else 0x00#8) ∧ seg.getLsbD 7 = dp ∧
      exec (.setGrid pos code dp) s
        = .next (s.afterSending (writeEvents (BitVec.ofNat 8 (gridRegister (positionOf pos))) seg))

/-- 43_grid_ops.md R233 (the spec's own D20): CLEARGRID sends 0x00 to the grid register of the clamped position; no
block state changes. -/
def Obligations.ClearGridWritesBlank : Prop :=
  ∀ (s : State) (pos : Byte), s.Ready →
    exec (.clearGrid pos) s
      = .next (s.afterSending (writeEvents (BitVec.ofNat 8 (gridRegister (positionOf pos))) 0x00#8))

/-- 43_grid_ops.md R230, R233 "Observer" and 20_memory.md R84: after SETGRID or CLEARGRID the chip's register of that
position holds the byte sent and every other register what it held. -/
def Obligations.GridWriteReachesChip : Prop :=
  ∀ (s : State) (pos code : Byte) (dp : Bool), s.Ready → s.busUnread = [] →
    (∃ t u : State, exec (.setGrid pos code dp) s = .next t ∧ Host.Core.run Sys2Proof.core 1 t = .next u ∧
      u.busUnread = [] ∧ u.lampMask = s.lampMask ∧
      ∀ addr, Memory.read u.obs.ram addr
        = if addr = gridRegister (positionOf pos)
          then some (symbolToSegments Config.font code.toNat ||| (if dp then 0x80#8 else 0x00#8))
          else Memory.read s.obs.ram addr) ∧
    (∃ t u : State, exec (.clearGrid pos) s = .next t ∧ Host.Core.run Sys2Proof.core 1 t = .next u ∧
      u.busUnread = [] ∧ u.lampMask = s.lampMask ∧
      ∀ addr, Memory.read u.obs.ram addr
        = if addr = gridRegister (positionOf pos) then some 0x00#8 else Memory.read s.obs.ram addr)

/-- 43_grid_ops.md R236 (the ascending order is the spec's own D21): CLEAR sends 0x00 to the eight grid registers in
ascending order; no block state changes; the chip's grid registers are then 0x00 and its lamp registers unchanged. -/
def Obligations.ClearBlanksEveryGrid : Prop :=
  ∀ s : State, s.Ready →
    ∃ t, exec .clear s = .next t ∧
      t = s.afterSending
            (writeEvents 0xC0#8 0#8 ++ writeEvents 0xC2#8 0#8 ++ writeEvents 0xC4#8 0#8 ++ writeEvents 0xC6#8 0#8 ++
              writeEvents 0xC8#8 0#8 ++ writeEvents 0xCA#8 0#8 ++ writeEvents 0xCC#8 0#8 ++ writeEvents 0xCE#8 0#8) ∧
      (s.busUnread = [] → ∃ u : State, Host.Core.run Sys2Proof.core 8 t = .next u ∧
        u.busUnread = [] ∧
        ∀ addr, Memory.read u.obs.ram addr
          = if 0xC0 ≤ addr ∧ addr ≤ 0xCF ∧ addr % 2 = 0 then some 0x00#8 else Memory.read s.obs.ram addr)

/-- 43_grid_ops.md R242 (what the point index counts and that it is not clamped are the spec's own D23, D24): with the
text of the value, its length L, the clamped start p and K = min L (9 - p), SHOWNUM sends K register writes, character
j (from 0) to position p + j, with the point on the character whose number from 1 is dpPos; no block state changes. -/
def Obligations.ShowNumWritesText : Prop :=
  ∀ (s : State) (value : BitVec 32) (dpPos start : Byte), s.Ready →
    exec (.showNum value dpPos start) s
      = .next (s.afterSending
          ((List.range (min (decimalText value.toInt).length (9 - positionOf start))).flatMap (fun j =>
            writeEvents (BitVec.ofNat 8 (gridRegister (positionOf start + j)))
              (symbolToSegments Config.font ((decimalText value.toInt).getD j 17)
                ||| (if j + 1 = dpPos.toNat then 0x80#8 else 0x00#8)))))

/-- 43_grid_ops.md R242 "Observer" (D23, D24): after SHOWNUM the chip's K grid registers from the start position on hold
the characters, and every other register, the positions before and after included, holds what it held. -/
def Obligations.ShowNumReachesChip : Prop :=
  ∀ (s : State) (value : BitVec 32) (dpPos start : Byte), s.Ready → s.busUnread = [] →
    ∃ t u : State, exec (.showNum value dpPos start) s = .next t ∧
      Host.Core.run Sys2Proof.core (min (decimalText value.toInt).length (9 - positionOf start)) t = .next u ∧
      u.busUnread = [] ∧
      (∀ j, j < min (decimalText value.toInt).length (9 - positionOf start) →
        Memory.read u.obs.ram (gridRegister (positionOf start + j))
          = some (symbolToSegments Config.font ((decimalText value.toInt).getD j 17)
              ||| (if j + 1 = dpPos.toNat then 0x80#8 else 0x00#8))) ∧
      (∀ addr, (∀ j, j < min (decimalText value.toInt).length (9 - positionOf start) →
          addr ≠ gridRegister (positionOf start + j)) →
        Memory.read u.obs.ram addr = Memory.read s.obs.ram addr)

/-- 44_gauge.md R262: GAUGE sends the composite byte of each position 1..8, in that order, to its grid register; no
block state changes. -/
def Obligations.GaugeWritesEveryPosition : Prop :=
  ∀ (s : State) (g1 g2 g3 g4 g5 : Byte), s.Ready →
    exec (.gauge g1 g2 g3 g4 g5) s
      = .next (s.afterSending
          ((List.range 8).flatMap (fun j =>
            writeEvents (BitVec.ofNat 8 (0xC0 + 2 * j))
              (gaugeByte Config.gaugeSeg (j + 1) g1.toNat g2.toNat g3.toNat g4.toNat g5.toNat))))

/-- 44_gauge.md R262 "Observer": after GAUGE the chip's grid register of position c holds the composite byte of c, and
every lamp register what it held. -/
def Obligations.GaugeReachesChip : Prop :=
  ∀ (s : State) (g1 g2 g3 g4 g5 : Byte), s.Ready → s.busUnread = [] →
    ∃ t u : State, exec (.gauge g1 g2 g3 g4 g5) s = .next t ∧ Host.Core.run Sys2Proof.core 8 t = .next u ∧
      u.busUnread = [] ∧
      (∀ c, 1 ≤ c ∧ c ≤ 8 → Memory.read u.obs.ram (gridRegister c)
        = some (gaugeByte Config.gaugeSeg c g1.toNat g2.toNat g3.toNat g4.toNat g5.toNat)) ∧
      (∀ c, 1 ≤ c ∧ c ≤ 8 → Memory.read u.obs.ram (lampRegister c) = Memory.read s.obs.ram (lampRegister c))

/-- 45_scan.md R282 over 40_framer.md R144 (the order of the last three events is the spec's own D14; where the bytes
come from is R79, D15, log 9): SCAN sends the scan frame with the four drawn bytes, leaves the line an output driven
low, and answers b0 | b1>>1 | b2>>2 | b3>>3; the mirror and the other registers are kept. -/
def Obligations.ScanReadsFourBytes : Prop :=
  ∀ s : State, s.Ready →
    ∃ b0 b1 b2 b3 : Byte, b0 = s.drawAhead 0 ∧ b1 = s.drawAhead 1 ∧ b2 = s.drawAhead 2 ∧ b3 = s.drawAhead 3 ∧
      exec .scan s
        = .next { s with
            busUnread := s.busUnread ++
              [.stbLow, .tx .lsbFirst 0x42#8, .dirIn, .rx .msbFirst b0, .rx .msbFirst b1, .rx .msbFirst b2,
               .rx .msbFirst b3, .dirOut, .dataLow, .stbHigh]
            port := { stb := .high, dir := .output, dio := .low, dioSet := .low }
            scanBuffer := none
            keyBytes := s.keyBytes.drop 4
            draws := s.draws + 4
            responses := s.responses ++
              [b0.setWidth 32 ||| (b1 >>> 1).setWidth 32 ||| (b2 >>> 2).setWidth 32 ||| (b3 >>> 3).setWidth 32] }

/-- 20_memory.md R79 (the spec's own D15; `keyBytes` is the model's, log 9): every four byte values can be what a SCAN
reads, in any state that accepts it, and the response is theirs. -/
def Obligations.EveryScanQuadrupleCanOccur : Prop :=
  ∀ (s : State) (b0 b1 b2 b3 : Byte), s.Ready →
    ∃ (key : List Byte) (t : State), exec .scan { s with keyBytes := key } = .next t ∧
      t.responses = s.responses ++ [scanDecode ⟨b0, b1, b2, b3⟩] ∧
      ∃ before after, t.trace = before ++ [.rx .msbFirst b0, .rx .msbFirst b1, .rx .msbFirst b2, .rx .msbFirst b3] ++ after

/-- 45_scan.md R282 "Observer" and 20_memory.md R85 (the spec's own D27): after a SCAN the observer's mode is UNKNOWN and
its registers and display are what they were. -/
def Obligations.ScanLeavesChipModeUnknown : Prop :=
  ∀ s : State, s.Ready → s.busUnread = [] →
    ∃ t u : State, exec .scan s = .next t ∧ Host.Core.run Sys2Proof.core 1 t = .next u ∧ u.busUnread = [] ∧
      u.obs.mode = .unknown ∧ u.obs.ram = s.obs.ram ∧ u.obs.display = s.obs.display ∧ u.obs.ptr = s.obs.ptr

/-! ### The bus commands -/

/-- 20_memory.md R82: AUTOINC_ON, byte 0x40, makes the chip's mode AUTO and AUTOINC_OFF, byte 0x44, makes it FIXED;
pointer, registers and display, and everything outside the observer, are kept. -/
def Obligations.ModeCommandsSetMode : Prop :=
  decode (.frame [0x40#8]) = .ok .autoIncOn ∧ decode (.frame [0x44#8]) = .ok .autoIncOff ∧
  ∀ s : State,
    (∃ t, exec .autoIncOn s = .next t ∧ t.obs.mode = .auto ∧ t.obs.ptr = s.obs.ptr ∧ t.obs.ram = s.obs.ram ∧
      t.obs.display = s.obs.display ∧ { t with obs := s.obs } = s) ∧
    (∃ t, exec .autoIncOff s = .next t ∧ t.obs.mode = .fixed ∧ t.obs.ptr = s.obs.ptr ∧ t.obs.ram = s.obs.ram ∧
      t.obs.display = s.obs.display ∧ { t with obs := s.obs } = s)

/-- 20_memory.md R83: the display command 0x87 + l, l in 0..8, makes the display OFF for l = 0, else LEVEL(l); mode,
pointer and registers, and everything outside the observer, are kept. -/
def Obligations.DisplayCommandsSetDisplay : Prop :=
  ∀ (s : State) (l : Nat), l ≤ 8 →
    ∃ i t, decode (.frame [BitVec.ofNat 8 (0x87 + l)]) = .ok i ∧ exec i s = .next t ∧
      t.obs.display = (if l = 0 then .off else .level l) ∧ t.obs.mode = s.obs.mode ∧ t.obs.ptr = s.obs.ptr ∧
      t.obs.ram = s.obs.ram ∧ { t with obs := s.obs } = s

/-- 20_memory.md R83, completion of the two rows: DISPLAY_OFF and DISPLAY_ON answer a next state with the display they
name. -/
def Obligations.DisplayRowsComplete : Prop :=
  ∀ (s : State) (levelMinus1 : BitVec 3),
    (∃ t, exec .displayOff s = .next t ∧ t.obs.display = .off ∧ { t with obs := s.obs } = s) ∧
    (∃ t, exec (.displayOn levelMinus1) s = .next t ∧ t.obs.display = .level (levelMinus1.toNat + 1) ∧
      { t with obs := s.obs } = s)

/-- 20_memory.md R85 (the spec's own D27): KEY_SCAN marks the frame as a key-scan frame and leaves the mode UNKNOWN;
pointer, registers and display, and everything outside the observer, are kept. -/
def Obligations.KeyScanMarksFrame : Prop :=
  ∀ s : State, ∃ t, exec .keyScan s = .next t ∧ t.obs.keys = some true ∧ t.obs.mode = .unknown ∧
    t.obs.ptr = s.obs.ptr ∧ t.obs.ram = s.obs.ram ∧ t.obs.display = s.obs.display ∧ { t with obs := s.obs } = s

/-- 20_memory.md R84, for the frame of register entry a = 2k (ADDR_GRID) or 2k + 1 (ADDR_LAMP), whose first byte is
0xC0 + a: with no data byte the pointer is a and registers, mode and display are kept. One more data byte d is written
where the pointer is, if that is a register; AUTO then advances the pointer, FIXED keeps it and UNKNOWN loses it, and
mode and display are kept. If the pointer is no register, every field of the observer becomes UNKNOWN: for a pointer
past the last register this is the spec's own choice (D27, 93 I8), for an UNKNOWN pointer the model's (log 14).
Everything outside the observer is kept. -/
def Obligations.AddressFrameWritesRegisters : Prop :=
  ∀ (s : State) (k : BitVec 3) (lamp : Bool) (data : List Byte) (d : Byte),
    let command := fun ds : List Byte => if lamp then Instr.addrLamp k ds else Instr.addrGrid k ds
    decode (.frame (BitVec.ofNat 8 (0xC0 + (2 * k.toNat + (if lamp then 1 else 0))) :: data)) = .ok (command data) ∧
    (∃ t, exec (command []) s = .next t ∧ t.obs.ptr = some (2 * k.toNat + (if lamp then 1 else 0)) ∧
      t.obs.ram = s.obs.ram ∧ t.obs.mode = s.obs.mode ∧ t.obs.display = s.obs.display ∧ { t with obs := s.obs } = s) ∧
    (∃ t u, exec (command data) s = .next t ∧ exec (command (data ++ [d])) s = .next u ∧
      (∀ p, t.obs.ptr = some p → p < 16 →
        (∀ addr, Memory.read u.obs.ram addr = if addr = 0xC0 + p then some d else Memory.read t.obs.ram addr) ∧
        u.obs.ptr = (match s.obs.mode with
          | .auto => some (p + 1)
          | .fixed => some p
          | .unknown => none) ∧
        u.obs.mode = s.obs.mode ∧ u.obs.display = s.obs.display) ∧
      ((∀ p, t.obs.ptr = some p → 16 ≤ p) →
        u.obs = { mode := .unknown, ptr := none, ram := [], display := .unknown, keys := none }) ∧
      { u with obs := s.obs } = s)

/-- 40_framer.md R145 and 20_memory.md R84: the RESET bulk frame zeroes all sixteen registers in AUTO mode and leaves the
pointer at 16; in FIXED mode it writes register 0xC0 alone. -/
def Obligations.BulkFrameNeedsAutoIncrement : Prop :=
  ∀ s : State,
    ∃ t, exec (.addrGrid 0#3 (List.replicate 16 0x00#8)) s = .next t ∧
      (s.obs.mode = .auto → t.obs.ptr = some 16 ∧
        ∀ addr, 0xC0 ≤ addr ∧ addr ≤ 0xCF → Memory.read t.obs.ram addr = some 0x00#8) ∧
      (s.obs.mode = .fixed → t.obs.ptr = some 0 ∧
        ∀ addr, Memory.read t.obs.ram addr = if addr = 0xC0 then some 0x00#8 else Memory.read s.obs.ram addr)

/-! ### Pure functions of the operands -/

/-- 41_lookup.md R171 to R173: for every integer n the addresses are the formula's on n clamped into 1..8. -/
def Obligations.AddressCalculatorFormula : Prop :=
  ∀ n : Int, ∃ p : Nat, (p : Int) = (if n < 1 then 1 else if 8 < n then 8 else n) ∧ clampPos n = p ∧
    (gridAddr n).toNat = 0xC0 + (p - 1) * 2 ∧ (lampAddr n).toNat = 0xC0 + 1 + (p - 1) * 2

/-- 41_lookup.md section 2 (derived there) and 90_conflicts.md C2: every register address is the address of exactly one
grid or lamp of a position 1..8, and the grid address steps by two for n in 1..7 but not from 8 to 9. -/
def Obligations.AddressCalculatorCoversRegisters : Prop :=
  (∀ a : Nat, 0xC0 ≤ a → a ≤ 0xCF → ∃ n : Nat, (1 ≤ n ∧ n ≤ 8 ∧
    ((gridAddr n).toNat = a ∨ (lampAddr n).toNat = a) ∧ (gridAddr n).toNat ≠ (lampAddr n).toNat) ∧
    ∀ m : Nat, 1 ≤ m → m ≤ 8 → ((gridAddr m).toNat = a ∨ (lampAddr m).toNat = a) → m = n) ∧
  (∀ n : Int, 1 ≤ n → n ≤ 7 → (gridAddr (n + 1)).toNat = (gridAddr n).toNat + 2) ∧ gridAddr 9 = gridAddr 8

/-- 41_lookup.md R175 and R176, for every FONT: codes above 17 and the blank give 0x00, no entry has bit 7, and codes 0
to 16 give the table's segment bits. -/
def Obligations.SymbolLookupByFont : Prop :=
  ∀ (font : Font) (code : Nat),
    (17 ≤ code → symbolToSegments font code = 0x00#8) ∧ (symbolToSegments font code).getLsbD 7 = false ∧
    (∀ h : code < 17, ∀ i, i < 7 → (symbolToSegments font code).getLsbD i = (font.segments[code]).getLsbD i)

/-- 43_grid_ops.md R239 (the form of the text is the spec's own D22): the recursion equations of the decimal text. -/
def Obligations.DecimalTextEquations : Prop :=
  (∀ u : Nat, digits u = if u < 10 then [u] else digits (u / 10) ++ [u % 10]) ∧
  (∀ v : Int, decimalText v = if v < 0 then 16 :: digits v.natAbs else digits v.natAbs)

/-- 43_grid_ops.md R239 (D22): the text of a 32-bit value has 1 to 11 characters, 11 only for values up to -10^9. -/
def Obligations.DecimalTextLength : Prop :=
  ∀ v : BitVec 32, 1 ≤ (decimalText v.toInt).length ∧ (decimalText v.toInt).length ≤ 11 ∧
    ((decimalText v.toInt).length = 11 ↔ v.toInt ≤ -1000000000)

/-- 44_gauge.md R261, for every GAUGE_SEG, position 1..8 and levels: a segment bit is lit exactly if it is a gauge's own
bit and the position is within its level, or a full bit within half the level, or a half bit at the odd half-step. -/
def Obligations.GaugeByteLightsItsBits : Prop :=
  ∀ (seg : GaugeSeg) (c g1 g2 g3 g4 g5 i : Nat), 1 ≤ c → c ≤ 8 →
    ((gaugeByte seg c g1 g2 g3 g4 g5).getLsbD i = true ↔
      (seg.g1.getLsbD i = true ∧ c ≤ g1) ∨ (seg.g3.getLsbD i = true ∧ c ≤ g3) ∨ (seg.g5.getLsbD i = true ∧ c ≤ g5) ∨
      (seg.g2Full.getLsbD i = true ∧ c ≤ g2 / 2) ∨ (seg.g2Half.getLsbD i = true ∧ g2 % 2 = 1 ∧ c - 1 = g2 / 2) ∨
      (seg.g4Full.getLsbD i = true ∧ c ≤ g4 / 2) ∨ (seg.g4Half.getLsbD i = true ∧ g4 % 2 = 1 ∧ c - 1 = g4 / 2))

/-- 44_gauge.md section on the properties of one 16-step gauge (derived there): over positions 1..8 the full bit counted
twice and the half bit once make min g 16 half-steps, and no position has both. -/
def Obligations.SixteenStepGaugeCountsHalfSteps : Prop :=
  ∀ (full half : Byte) (g : Nat), full ≠ 0#8 → half ≠ 0#8 → full &&& half = 0#8 →
    ((List.range 8).map (fun j =>
        if sixteenStep full half (j + 1) g = full then 2 else if sixteenStep full half (j + 1) g = half then 1 else 0)).sum
      = min g 16 ∧
    ∀ c, 1 ≤ c → c ≤ 8 → sixteenStep full half c g = full ∨ sixteenStep full half c g = half ∨
      sixteenStep full half c g = 0#8

/-- 44_gauge.md section on clamping (derived there; D25): clamping the levels to their maxima changes no byte. -/
def Obligations.GaugeClampingUnobservable : Prop :=
  ∀ (seg : GaugeSeg) (c g1 g2 g3 g4 g5 : Nat), 1 ≤ c → c ≤ 8 →
    gaugeByte seg c (min g1 8) (min g2 16) (min g3 8) (min g4 16) (min g5 8) = gaugeByte seg c g1 g2 g3 g4 g5

/-- 44_gauge.md section on interference (derived there): each gauge reads back from the composite byte alone. -/
def Obligations.GaugesDoNotInterfere : Prop :=
  ∀ (seg : GaugeSeg) (c g1 g2 g3 g4 g5 : Nat),
    gaugeByte seg c g1 g2 g3 g4 g5 &&& seg.g1 = eightStep seg.g1 c g1 ∧
    gaugeByte seg c g1 g2 g3 g4 g5 &&& seg.g3 = eightStep seg.g3 c g3 ∧
    gaugeByte seg c g1 g2 g3 g4 g5 &&& seg.g5 = eightStep seg.g5 c g5 ∧
    gaugeByte seg c g1 g2 g3 g4 g5 &&& (seg.g2Full ||| seg.g2Half) = sixteenStep seg.g2Full seg.g2Half c g2 ∧
    gaugeByte seg c g1 g2 g3 g4 g5 &&& (seg.g4Full ||| seg.g4Half) = sixteenStep seg.g4Full seg.g4Half c g4

/-- 45_scan.md section on the decode (R283 to R285 are derived there; D26): the response is b0 | b1>>1 | b2>>2 | b3>>3,
lies in 0..255, and does not see the low i bits of byte i. -/
def Obligations.ScanDecodeLosesLowBits : Prop :=
  ∀ b0 b1 b2 b3 : Byte,
    (scanDecode ⟨b0, b1, b2, b3⟩).toNat
      = b0.toNat ||| (b1.toNat / 2) ||| (b2.toNat / 4) ||| (b3.toNat / 8) ∧
    (scanDecode ⟨b0, b1, b2, b3⟩).toNat < 256 ∧
    scanDecode ⟨b0, b1, b2, b3⟩ = scanDecode ⟨b0, b1 &&& 0xFE#8, b2 &&& 0xFC#8, b3 &&& 0xF8#8⟩

/-- 20_memory.md R63 and R64, 40_framer.md R147 (R64 and R147 are derived there): a written byte passes the line bit 0
first, and a read byte's first sample is bit 7. -/
def Obligations.BitOrderOutAndIn : Prop :=
  (∀ b : Byte, (txBits b).length = 8 ∧ ∀ k, k < 8 → (txBits b)[k]? = some (b.getLsbD k)) ∧
  (∀ samples : List Bool, samples.length = 8 → ∀ k, k < 8 → samples[k]? = some ((rxByte samples).getLsbD (7 - k)))

/-! ### Whole-machine statements -/

/-- The invariant of the machine at power-on. -/
def Obligations.InvAtReset : Prop := State.reset.Inv

/-- 10_state.md R32, R41, R43, R47, 40_framer.md R140, R148, R149, 20_memory.md R63, R80 to R86 (log 4, log 5, log 6): from
every state that meets the invariant every step that answers a next state leads to one that meets it. The strobe is
HIGH and the line an output between requests, autoIncrement is not left on, after a RESET the mirror holds a value, the
whole trace is legal, and the observer is the event-by-event reading of what it has read. -/
def Obligations.StepKeepsInv : Prop := ∀ s t : State, s.Inv → step s = .next t → t.Inv

/-- 20_memory.md R80 to R87 (log 4): from every state with no frame waiting, a request that runs is followed by as many
steps as it sent frames, after which the observer is the event-by-event reading of what was sent, and nothing else has
changed but which part of the trace is read. -/
def Obligations.ObserverReadsWhatARequestSent : Prop :=
  ∀ (i : Instr) (s t : State), i.isRequest = true → s.busUnread = [] → exec i s = .next t →
    Host.Core.run Sys2Proof.core (framesOf none t.busUnread).length t
      = .next { t with busRead := t.trace, busUnread := [], obs := (observeAll t.busUnread s.obs).2 }

/-- 20_memory.md R88 and 10_state.md R44: no request reads the observer, so two states that differ in it alone give
results that differ in it alone. -/
def Obligations.RequestsDoNotReadTheChip : Prop :=
  ∀ (i : Instr) (s : State) (o : Observer), i.isRequest = true →
    exec i { s with obs := o }
      = (match exec i s with
        | .next t => .next { t with obs := o }
        | .fault f => .fault f
        | .refused r => .refused r)

/-- 30_encoding.md R113, R116, R117 (derived there): every frame a request sends decodes to a well-formed command. -/
def Obligations.RequestsSendWellFormedFrames : Prop :=
  ∀ (i : Instr) (s t : State), i.isRequest = true → exec i s = .next t →
    ∃ es, t.busUnread = s.busUnread ++ es ∧
      ∀ bytes ∈ framesOf none es, ∃ c, decode (.frame bytes) = .ok c ∧ c.wf = true ∧ c.isRequest = false

/-- 70_reset_and_hazards.md R344 (derived there): how many events each request that is accepted adds to the trace. -/
def Obligations.EventCountOfEveryRequest : Prop :=
  ∀ (i : Instr) (s t : State), s.Ready → exec i s = .next t →
    t.trace.length = s.trace.length +
      (match i with
        | .reset => 25
        | .setBright _ => 3
        | .setLamp _ _ => 4
        | .getLamp _ => 0
        | .setGrid _ _ _ => 4
        | .clearGrid _ => 4
        | .clear => 32
        | .showNum value _ start => 4 * min (decimalText value.toInt).length (9 - positionOf start)
        | .gauge _ _ _ _ _ => 32
        | .scan => 10
        | _ => 0)

/-- The data level in both accounts of the spec (log 10), after every accepted request. `dioSet` (10_state.md R45 and
70_reset_and_hazards.md R331, derived there): written by SCAN alone, so unchanged by RESET. `dio` (10_state.md R39,
20_memory.md R70): LOW after a SCAN, kept by a GETLAMP, which sends nothing, and UNKNOWN after any other request. -/
def Obligations.DataLevelAfterEveryRequest : Prop :=
  ∀ (i : Instr) (s t : State), i.isRequest = true → s.Ready → exec i s = .next t →
    t.port.dioSet = (if i = .scan then .low else s.port.dioSet) ∧
    t.port.dio = (match i with
      | .scan => .low
      | .getLamp _ => s.port.dio
      | _ => .unknown)

/-- 10_state.md R43: the trace is empty at power-on, and no step removes or reorders an event of it. -/
def Obligations.TraceIsAppendOnly : Prop :=
  State.reset.trace = [] ∧ ∀ s t : State, step s = .next t → s.trace <+: t.trace

/-- 10_state.md R31, R32, R37: only SETLAMP and RESET change the mirror, SETLAMP one bit of it at most; only RESET changes
autoIncrement and init, and it leaves them 0 and 1. -/
def Obligations.RegisterWriters : Prop :=
  ∀ (i : Instr) (s t : State), exec i s = .next t →
    (t.lampMask = s.lampMask ∨ (i = .reset ∧ t.lampMask = some 0x00#8) ∨
      ∃ num on, i = .setLamp num on ∧
        ∀ j, j ≠ positionOf num - 1 → t.lampMirror.getLsbD j = s.lampMirror.getLsbD j) ∧
    (t.autoIncrement = s.autoIncrement ∨ (i = .reset ∧ t.autoIncrement = some false)) ∧
    (t.init = s.init ∨ (i = .reset ∧ t.init = true))

/-- 30_encoding.md R109 (the spec's own D6) and 60_exceptions.md R304: GETLAMP and SCAN give one response each where they
are accepted; every other instruction, and every request that faults, gives none. -/
def Obligations.OnlyGetLampAndScanRespond : Prop :=
  ∀ (i : Instr) (s t : State), exec i s = .next t →
    (t.responses = s.responses ∧ (s.init = false ∨ (i ≠ .scan ∧ ∀ num, i ≠ .getLamp num))) ∨
    (s.init = true ∧ (i = .scan ∨ ∃ num, i = .getLamp num) ∧ ∃ v, t.responses = s.responses ++ [v])

/-- 20_memory.md R68 (derived there from R84): a second write of the same byte to the same register, in any mode, leaves
the registers as the first did. -/
def Obligations.RegisterWriteIsIdempotent : Prop :=
  ∀ (s t u : State) (k : BitVec 3) (lamp : Bool) (d : Byte),
    exec (if lamp then .addrLamp k [d] else .addrGrid k [d]) s = .next t →
    exec (if lamp then .addrLamp k [d] else .addrGrid k [d]) t = .next u → u.obs.ram = t.obs.ram
end

