-- ==== Sys2Proof/Laws/Encoding.lean ====
section
/-! SUPPORT. The bits of a request word of each format (30_encoding.md R103), and how a field is read off them. -/

namespace Sys2Proof

theorem wordHN_bit (op : Byte) (i : Nat) :
    (wordHN op).getLsbD i = if i < 56 then false else op.getLsbD (i - 56) := by
  simp only [wordHN, BitVec.getLsbD_append]
  grind

theorem wordHA_bit (op a : Byte) (i : Nat) :
    (wordHA op a).getLsbD i = if i < 8 then a.getLsbD i else if i < 56 then false else op.getLsbD (i - 56) := by
  simp only [wordHA, BitVec.getLsbD_append, BitVec.getLsbD_zero]
  grind

theorem wordHL_bit (op num : Byte) (on : Bool) (i : Nat) :
    (wordHL op num on).getLsbD i
      = if i < 8 then num.getLsbD i else if i = 8 then on else if i < 56 then false else op.getLsbD (i - 56) := by
  simp only [wordHL, BitVec.getLsbD_append, BitVec.getLsbD_zero, BitVec.getLsbD_ofBool]
  grind

theorem wordHG_bit (op pos code : Byte) (dp : Bool) (i : Nat) :
    (wordHG op pos code dp).getLsbD i
      = if i < 8 then pos.getLsbD i else if i < 16 then code.getLsbD (i - 8) else if i = 16 then dp
        else if i < 56 then false else op.getLsbD (i - 56) := by
  simp only [wordHG, BitVec.getLsbD_append, BitVec.getLsbD_zero, BitVec.getLsbD_ofBool]
  grind

theorem wordHS_bit (op : Byte) (value : BitVec 32) (dpPos start : Byte) (i : Nat) :
    (wordHS op value dpPos start).getLsbD i
      = if i < 32 then value.getLsbD i else if i < 40 then dpPos.getLsbD (i - 32)
        else if i < 48 then start.getLsbD (i - 40) else if i < 56 then false else op.getLsbD (i - 56) := by
  simp only [wordHS, BitVec.getLsbD_append, BitVec.getLsbD_zero]
  grind

theorem wordHV_bit (op g1 g2 g3 g4 g5 : Byte) (i : Nat) :
    (wordHV op g1 g2 g3 g4 g5).getLsbD i
      = if i < 8 then g1.getLsbD i else if i < 16 then g2.getLsbD (i - 8) else if i < 24 then g3.getLsbD (i - 16)
        else if i < 32 then g4.getLsbD (i - 24) else if i < 40 then g5.getLsbD (i - 32) else if i < 56 then false
        else op.getLsbD (i - 56) := by
  simp only [wordHV, BitVec.getLsbD_append, BitVec.getLsbD_zero]
  grind

/-- A field whose bits are those of x is x. -/
theorem field_eq {w : RequestWord} {n : Nat} (first : Nat) (x : BitVec n)
    (h : ∀ i, i < n → w.getLsbD (first + i) = x.getLsbD i) : w.extractLsb' first n = x := by
  apply BitVec.eq_of_getLsbD_eq
  intro i hi
  simp [hi, h]

/-- The address byte of register entry 2k and its fields (30_encoding.md R112). -/
theorem gridByte_fields (k : BitVec 3) :
    isAddress (gridByte k) = true ∧ (gridByte k).getLsbD 0 = false ∧ (gridByte k).extractLsb' 1 3 = k := by
  revert k
  decide

/-- The address byte of register entry 2k + 1 and its fields (30_encoding.md R112). -/
theorem lampByte_fields (k : BitVec 3) :
    isAddress (lampByte k) = true ∧ (lampByte k).getLsbD 0 = true ∧ (lampByte k).extractLsb' 1 3 = k := by
  revert k
  decide

/-- A request word decodes to the instruction exactly where its must-be-zero field is zero (30_encoding.md R105). -/
theorem unlessSet_ok {n : Nat} {z : BitVec n} {w : RequestWord} {i j : Instr} :
    unlessSet z w i = .ok j ↔ z = 0#n ∧ i = j := by
  unfold unlessSet
  split <;> simp [*]

end Sys2Proof
end

