-- ==== Sys2Proof/Laws/Memory.lean ====
section
/-! SUPPORT. The laws of the chip register space: a register read after it was written gives the value written, every
other register reads as before, and a write keeps the canonical form. -/

namespace Sys2Proof.Machine

open Sys2Proof

@[simp] theorem Memory.read_nil (addr : Nat) : Memory.read [] addr = none := rfl

/-- Reading after a write, for any list of cells. -/
theorem Memory.read_write (m : Memory) (addr addr' : Nat) (d : Byte) :
    Memory.read (Memory.write m addr d) addr' = if addr = addr' then some d else Memory.read m addr' := by
  induction m with
  | nil => simp [Memory.write, Memory.read]
  | cons c m ih =>
    obtain ⟨a, b⟩ := c
    simp only [Memory.write]
    split
    · simp [Memory.read]
    · split
      · rename_i h
        subst h
        by_cases h' : addr = addr' <;> simp [Memory.read, h']
      · simp only [Memory.read, ih]
        by_cases h : a = addr' <;> by_cases h' : addr = addr' <;> simp_all

theorem Memory.read_write_same (m : Memory) (addr : Nat) (d : Byte) :
    Memory.read (Memory.write m addr d) addr = some d := by
  simp [Memory.read_write]

theorem Memory.read_write_other (m : Memory) {addr addr' : Nat} (d : Byte) (h : addr ≠ addr') :
    Memory.read (Memory.write m addr d) addr' = Memory.read m addr' := by
  simp [Memory.read_write, h]

theorem Memory.mem_write {m : Memory} {addr : Nat} {d : Byte} {c : Host.Cell} (h : c ∈ Memory.write m addr d) :
    c = (addr, d) ∨ c ∈ m := by
  induction m with
  | nil => simpa [Memory.write] using h
  | cons c' m ih =>
    obtain ⟨a, b⟩ := c'
    simp only [Memory.write] at h
    split at h
    · simpa using h
    · split at h
      · rcases List.mem_cons.1 h with h | h
        · exact .inl h
        · exact .inr (List.mem_cons_of_mem _ h)
      · rcases List.mem_cons.1 h with h | h
        · exact .inr (h ▸ List.mem_cons_self)
        · exact (ih h).imp id (List.mem_cons_of_mem _)

theorem Memory.write_pairwise (m : Memory) (addr : Nat) (d : Byte) (hm : m.Pairwise (fun c c' => c.1 < c'.1)) :
    (Memory.write m addr d).Pairwise (fun c c' => c.1 < c'.1) := by
  induction m with
  | nil => simp [Memory.write]
  | cons c m ih =>
    obtain ⟨a, b⟩ := c
    obtain ⟨h1, h2⟩ := List.pairwise_cons.1 hm
    simp only [Memory.write]
    split
    · rename_i h
      refine List.pairwise_cons.2 ⟨fun c hc => ?_, hm⟩
      rcases List.mem_cons.1 hc with rfl | hc
      · exact h
      · exact lt_trans h (h1 c hc)
    · split
      · rename_i h
        exact List.pairwise_cons.2 ⟨fun c hc => h ▸ h1 c hc, h2⟩
      · refine List.pairwise_cons.2 ⟨fun c hc => ?_, ih h2⟩
        rcases Memory.mem_write hc with rfl | hc
        · simp only
          omega
        · exact h1 c hc

/-- Writing a register keeps the canonical form. -/
theorem Memory.wf_write {m : Memory} {addr : Nat} (d : Byte) (hm : Memory.wf m) (h : isRegister addr = true) :
    Memory.wf (Memory.write m addr d) :=
  ⟨Memory.write_pairwise m addr d hm.1, fun c hc => by
    rcases Memory.mem_write hc with rfl | hc
    · exact h
    · exact hm.2 c hc⟩

/-- The memory of the reset state, no register listed, is in canonical form. -/
theorem Memory.wf_nil : Memory.wf [] := ⟨List.Pairwise.nil, by simp⟩

end Sys2Proof.Machine
end

