-- ==== Sys2Proof/Laws/Operands.lean ====
section
/-! SUPPORT. What the clamps and the address calculator give on the operands of a request: the position 1..8 and the
register address of 20_memory.md R61. -/

namespace Sys2Proof.Machine

open Sys2Proof

theorem positionOf_range (b : Byte) : 1 ≤ positionOf b ∧ positionOf b ≤ 8 := by
  simp only [positionOf]
  omega

theorem clampPos_operand (b : Byte) : clampPos (unsignedOperand b) = positionOf b := by
  simp only [clampPos, unsignedOperand, positionOf, clamp]
  split_ifs <;> omega

theorem clampPos_position {p : Nat} (h1 : 1 ≤ p) (h8 : p ≤ 8) : clampPos (p : Int) = p := by
  simp only [clampPos, clamp]
  split_ifs <;> omega

theorem clampBright_operand (b : Byte) : clampBright (unsignedOperand b) = min b.toNat 8 := by
  simp only [clampBright, unsignedOperand, clamp]
  split_ifs <;> omega

theorem gridAddr_operand (b : Byte) : gridAddr (unsignedOperand b) = BitVec.ofNat 8 (gridRegister (positionOf b)) := by
  simp only [gridAddr, clampPos_operand, gridRegister, regBase]
  congr 1
  omega

theorem lampAddr_operand (b : Byte) : lampAddr (unsignedOperand b) = BitVec.ofNat 8 (lampRegister (positionOf b)) := by
  simp only [lampAddr, clampPos_operand, lampRegister, regBase]
  congr 1
  omega

theorem gridAddr_position {p : Nat} (h1 : 1 ≤ p) (h8 : p ≤ 8) :
    gridAddr (p : Int) = BitVec.ofNat 8 (gridRegister p) := by
  simp only [gridAddr, clampPos_position h1 h8, gridRegister, regBase]
  congr 1
  omega

/-- The blank pattern is 0x00 in every FONT (41_lookup.md R176). -/
theorem symbolToSegments_blank (font : Font) : symbolToSegments font blankCode = 0x00#8 := by
  simp [symbolToSegments, blankCode, fontEntry]

/-- No font entry lights the decimal point (41_lookup.md R176). -/
theorem symbolToSegments_noPoint (font : Font) (code : Nat) : (symbolToSegments font code).getLsbD 7 = false := by
  unfold symbolToSegments fontEntry
  split
  · split <;> simp
  · simp

end Sys2Proof.Machine
end

