-- ==== Sys2Proof/Laws/State.lean ====
section
/-! SUPPORT. For each update of State, what it does to each field: true by rfl, tagged simp, so that no later proof
unfolds an update. -/

namespace Sys2Proof.Machine

open Sys2Proof

variable (s : State)

/-! ### emit -/

@[simp] theorem State.emit_lampMask (es : List Event) : (s.emit es).lampMask = s.lampMask := rfl
@[simp] theorem State.emit_autoIncrement (es : List Event) : (s.emit es).autoIncrement = s.autoIncrement := rfl
@[simp] theorem State.emit_init (es : List Event) : (s.emit es).init = s.init := rfl
@[simp] theorem State.emit_fault (es : List Event) : (s.emit es).fault = s.fault := rfl
@[simp] theorem State.emit_port (es : List Event) : (s.emit es).port = es.foldl Port.after s.port := rfl
@[simp] theorem State.emit_scanBuffer (es : List Event) : (s.emit es).scanBuffer = s.scanBuffer := rfl
@[simp] theorem State.emit_busRead (es : List Event) : (s.emit es).busRead = s.busRead := rfl
@[simp] theorem State.emit_busUnread (es : List Event) : (s.emit es).busUnread = s.busUnread ++ es := rfl
@[simp] theorem State.emit_obs (es : List Event) : (s.emit es).obs = s.obs := rfl
@[simp] theorem State.emit_requests (es : List Event) : (s.emit es).requests = s.requests := rfl
@[simp] theorem State.emit_reqIndex (es : List Event) : (s.emit es).reqIndex = s.reqIndex := rfl
@[simp] theorem State.emit_responses (es : List Event) : (s.emit es).responses = s.responses := rfl
@[simp] theorem State.emit_keyBytes (es : List Event) : (s.emit es).keyBytes = s.keyBytes := rfl
@[simp] theorem State.emit_draws (es : List Event) : (s.emit es).draws = s.draws := rfl

/-! ### setLampMask -/

@[simp] theorem State.setLampMask_lampMask (mask : Byte) : (s.setLampMask mask).lampMask = some mask := rfl
@[simp] theorem State.setLampMask_autoIncrement (mask : Byte) :
    (s.setLampMask mask).autoIncrement = s.autoIncrement := rfl
@[simp] theorem State.setLampMask_init (mask : Byte) : (s.setLampMask mask).init = s.init := rfl
@[simp] theorem State.setLampMask_fault (mask : Byte) : (s.setLampMask mask).fault = s.fault := rfl
@[simp] theorem State.setLampMask_port (mask : Byte) : (s.setLampMask mask).port = s.port := rfl
@[simp] theorem State.setLampMask_scanBuffer (mask : Byte) : (s.setLampMask mask).scanBuffer = s.scanBuffer := rfl
@[simp] theorem State.setLampMask_busRead (mask : Byte) : (s.setLampMask mask).busRead = s.busRead := rfl
@[simp] theorem State.setLampMask_busUnread (mask : Byte) : (s.setLampMask mask).busUnread = s.busUnread := rfl
@[simp] theorem State.setLampMask_obs (mask : Byte) : (s.setLampMask mask).obs = s.obs := rfl
@[simp] theorem State.setLampMask_requests (mask : Byte) : (s.setLampMask mask).requests = s.requests := rfl
@[simp] theorem State.setLampMask_reqIndex (mask : Byte) : (s.setLampMask mask).reqIndex = s.reqIndex := rfl
@[simp] theorem State.setLampMask_responses (mask : Byte) : (s.setLampMask mask).responses = s.responses := rfl
@[simp] theorem State.setLampMask_keyBytes (mask : Byte) : (s.setLampMask mask).keyBytes = s.keyBytes := rfl
@[simp] theorem State.setLampMask_draws (mask : Byte) : (s.setLampMask mask).draws = s.draws := rfl

/-! ### setAutoIncrement -/

@[simp] theorem State.setAutoIncrement_lampMask (on : Bool) : (s.setAutoIncrement on).lampMask = s.lampMask := rfl
@[simp] theorem State.setAutoIncrement_autoIncrement (on : Bool) :
    (s.setAutoIncrement on).autoIncrement = some on := rfl
@[simp] theorem State.setAutoIncrement_init (on : Bool) : (s.setAutoIncrement on).init = s.init := rfl
@[simp] theorem State.setAutoIncrement_fault (on : Bool) : (s.setAutoIncrement on).fault = s.fault := rfl
@[simp] theorem State.setAutoIncrement_port (on : Bool) : (s.setAutoIncrement on).port = s.port := rfl
@[simp] theorem State.setAutoIncrement_scanBuffer (on : Bool) :
    (s.setAutoIncrement on).scanBuffer = s.scanBuffer := rfl
@[simp] theorem State.setAutoIncrement_busRead (on : Bool) : (s.setAutoIncrement on).busRead = s.busRead := rfl
@[simp] theorem State.setAutoIncrement_busUnread (on : Bool) : (s.setAutoIncrement on).busUnread = s.busUnread := rfl
@[simp] theorem State.setAutoIncrement_obs (on : Bool) : (s.setAutoIncrement on).obs = s.obs := rfl
@[simp] theorem State.setAutoIncrement_requests (on : Bool) : (s.setAutoIncrement on).requests = s.requests := rfl
@[simp] theorem State.setAutoIncrement_reqIndex (on : Bool) : (s.setAutoIncrement on).reqIndex = s.reqIndex := rfl
@[simp] theorem State.setAutoIncrement_responses (on : Bool) : (s.setAutoIncrement on).responses = s.responses := rfl
@[simp] theorem State.setAutoIncrement_keyBytes (on : Bool) : (s.setAutoIncrement on).keyBytes = s.keyBytes := rfl
@[simp] theorem State.setAutoIncrement_draws (on : Bool) : (s.setAutoIncrement on).draws = s.draws := rfl

/-! ### setInit -/

@[simp] theorem State.setInit_lampMask : (s.setInit).lampMask = s.lampMask := rfl
@[simp] theorem State.setInit_autoIncrement : (s.setInit).autoIncrement = s.autoIncrement := rfl
@[simp] theorem State.setInit_init : (s.setInit).init = true := rfl
@[simp] theorem State.setInit_fault : (s.setInit).fault = s.fault := rfl
@[simp] theorem State.setInit_port : (s.setInit).port = s.port := rfl
@[simp] theorem State.setInit_scanBuffer : (s.setInit).scanBuffer = s.scanBuffer := rfl
@[simp] theorem State.setInit_busRead : (s.setInit).busRead = s.busRead := rfl
@[simp] theorem State.setInit_busUnread : (s.setInit).busUnread = s.busUnread := rfl
@[simp] theorem State.setInit_obs : (s.setInit).obs = s.obs := rfl
@[simp] theorem State.setInit_requests : (s.setInit).requests = s.requests := rfl
@[simp] theorem State.setInit_reqIndex : (s.setInit).reqIndex = s.reqIndex := rfl
@[simp] theorem State.setInit_responses : (s.setInit).responses = s.responses := rfl
@[simp] theorem State.setInit_keyBytes : (s.setInit).keyBytes = s.keyBytes := rfl
@[simp] theorem State.setInit_draws : (s.setInit).draws = s.draws := rfl

/-! ### respond -/

@[simp] theorem State.respond_lampMask (v : Response) : (s.respond v).lampMask = s.lampMask := rfl
@[simp] theorem State.respond_autoIncrement (v : Response) : (s.respond v).autoIncrement = s.autoIncrement := rfl
@[simp] theorem State.respond_init (v : Response) : (s.respond v).init = s.init := rfl
@[simp] theorem State.respond_fault (v : Response) : (s.respond v).fault = s.fault := rfl
@[simp] theorem State.respond_port (v : Response) : (s.respond v).port = s.port := rfl
@[simp] theorem State.respond_scanBuffer (v : Response) : (s.respond v).scanBuffer = s.scanBuffer := rfl
@[simp] theorem State.respond_busRead (v : Response) : (s.respond v).busRead = s.busRead := rfl
@[simp] theorem State.respond_busUnread (v : Response) : (s.respond v).busUnread = s.busUnread := rfl
@[simp] theorem State.respond_obs (v : Response) : (s.respond v).obs = s.obs := rfl
@[simp] theorem State.respond_requests (v : Response) : (s.respond v).requests = s.requests := rfl
@[simp] theorem State.respond_reqIndex (v : Response) : (s.respond v).reqIndex = s.reqIndex := rfl
@[simp] theorem State.respond_responses (v : Response) : (s.respond v).responses = s.responses ++ [v] := rfl
@[simp] theorem State.respond_keyBytes (v : Response) : (s.respond v).keyBytes = s.keyBytes := rfl
@[simp] theorem State.respond_draws (v : Response) : (s.respond v).draws = s.draws := rfl

/-! ### raise -/

@[simp] theorem State.raise_lampMask (f : Fault) : (s.raise f).lampMask = s.lampMask := rfl
@[simp] theorem State.raise_autoIncrement (f : Fault) : (s.raise f).autoIncrement = s.autoIncrement := rfl
@[simp] theorem State.raise_init (f : Fault) : (s.raise f).init = s.init := rfl
@[simp] theorem State.raise_fault (f : Fault) : (s.raise f).fault = some f := rfl
@[simp] theorem State.raise_port (f : Fault) : (s.raise f).port = s.port := rfl
@[simp] theorem State.raise_scanBuffer (f : Fault) : (s.raise f).scanBuffer = s.scanBuffer := rfl
@[simp] theorem State.raise_busRead (f : Fault) : (s.raise f).busRead = s.busRead := rfl
@[simp] theorem State.raise_busUnread (f : Fault) : (s.raise f).busUnread = s.busUnread := rfl
@[simp] theorem State.raise_obs (f : Fault) : (s.raise f).obs = s.obs := rfl
@[simp] theorem State.raise_requests (f : Fault) : (s.raise f).requests = s.requests := rfl
@[simp] theorem State.raise_reqIndex (f : Fault) : (s.raise f).reqIndex = s.reqIndex := rfl
@[simp] theorem State.raise_responses (f : Fault) : (s.raise f).responses = s.responses := rfl
@[simp] theorem State.raise_keyBytes (f : Fault) : (s.raise f).keyBytes = s.keyBytes := rfl
@[simp] theorem State.raise_draws (f : Fault) : (s.raise f).draws = s.draws := rfl

/-! ### dropScanBuffer -/

@[simp] theorem State.dropScanBuffer_lampMask : (s.dropScanBuffer).lampMask = s.lampMask := rfl
@[simp] theorem State.dropScanBuffer_autoIncrement : (s.dropScanBuffer).autoIncrement = s.autoIncrement := rfl
@[simp] theorem State.dropScanBuffer_init : (s.dropScanBuffer).init = s.init := rfl
@[simp] theorem State.dropScanBuffer_fault : (s.dropScanBuffer).fault = s.fault := rfl
@[simp] theorem State.dropScanBuffer_port : (s.dropScanBuffer).port = s.port := rfl
@[simp] theorem State.dropScanBuffer_scanBuffer : (s.dropScanBuffer).scanBuffer = none := rfl
@[simp] theorem State.dropScanBuffer_busRead : (s.dropScanBuffer).busRead = s.busRead := rfl
@[simp] theorem State.dropScanBuffer_busUnread : (s.dropScanBuffer).busUnread = s.busUnread := rfl
@[simp] theorem State.dropScanBuffer_obs : (s.dropScanBuffer).obs = s.obs := rfl
@[simp] theorem State.dropScanBuffer_requests : (s.dropScanBuffer).requests = s.requests := rfl
@[simp] theorem State.dropScanBuffer_reqIndex : (s.dropScanBuffer).reqIndex = s.reqIndex := rfl
@[simp] theorem State.dropScanBuffer_responses : (s.dropScanBuffer).responses = s.responses := rfl
@[simp] theorem State.dropScanBuffer_keyBytes : (s.dropScanBuffer).keyBytes = s.keyBytes := rfl
@[simp] theorem State.dropScanBuffer_draws : (s.dropScanBuffer).draws = s.draws := rfl

/-! ### sendScanAndRead -/

@[simp] theorem State.sendScanAndRead_lampMask : (s.sendScanAndRead).lampMask = s.lampMask := rfl
@[simp] theorem State.sendScanAndRead_autoIncrement : (s.sendScanAndRead).autoIncrement = s.autoIncrement := rfl
@[simp] theorem State.sendScanAndRead_init : (s.sendScanAndRead).init = s.init := rfl
@[simp] theorem State.sendScanAndRead_fault : (s.sendScanAndRead).fault = s.fault := rfl
@[simp] theorem State.sendScanAndRead_port :
    (s.sendScanAndRead).port = (scanEvents s.nextScan).foldl Port.after s.port := rfl
@[simp] theorem State.sendScanAndRead_scanBuffer : (s.sendScanAndRead).scanBuffer = some s.nextScan := rfl
@[simp] theorem State.sendScanAndRead_busRead : (s.sendScanAndRead).busRead = s.busRead := rfl
@[simp] theorem State.sendScanAndRead_busUnread :
    (s.sendScanAndRead).busUnread = s.busUnread ++ scanEvents s.nextScan := rfl
@[simp] theorem State.sendScanAndRead_obs : (s.sendScanAndRead).obs = s.obs := rfl
@[simp] theorem State.sendScanAndRead_requests : (s.sendScanAndRead).requests = s.requests := rfl
@[simp] theorem State.sendScanAndRead_reqIndex : (s.sendScanAndRead).reqIndex = s.reqIndex := rfl
@[simp] theorem State.sendScanAndRead_responses : (s.sendScanAndRead).responses = s.responses := rfl
@[simp] theorem State.sendScanAndRead_keyBytes : (s.sendScanAndRead).keyBytes = s.keyBytes.drop 4 := rfl
@[simp] theorem State.sendScanAndRead_draws : (s.sendScanAndRead).draws = s.draws + 4 := rfl

/-! ### observe -/

@[simp] theorem State.observe_lampMask (f : Observer → Observer) : (s.observe f).lampMask = s.lampMask := rfl
@[simp] theorem State.observe_autoIncrement (f : Observer → Observer) :
    (s.observe f).autoIncrement = s.autoIncrement := rfl
@[simp] theorem State.observe_init (f : Observer → Observer) : (s.observe f).init = s.init := rfl
@[simp] theorem State.observe_fault (f : Observer → Observer) : (s.observe f).fault = s.fault := rfl
@[simp] theorem State.observe_port (f : Observer → Observer) : (s.observe f).port = s.port := rfl
@[simp] theorem State.observe_scanBuffer (f : Observer → Observer) : (s.observe f).scanBuffer = s.scanBuffer := rfl
@[simp] theorem State.observe_busRead (f : Observer → Observer) : (s.observe f).busRead = s.busRead := rfl
@[simp] theorem State.observe_busUnread (f : Observer → Observer) : (s.observe f).busUnread = s.busUnread := rfl
@[simp] theorem State.observe_obs (f : Observer → Observer) : (s.observe f).obs = f s.obs := rfl
@[simp] theorem State.observe_requests (f : Observer → Observer) : (s.observe f).requests = s.requests := rfl
@[simp] theorem State.observe_reqIndex (f : Observer → Observer) : (s.observe f).reqIndex = s.reqIndex := rfl
@[simp] theorem State.observe_responses (f : Observer → Observer) : (s.observe f).responses = s.responses := rfl
@[simp] theorem State.observe_keyBytes (f : Observer → Observer) : (s.observe f).keyBytes = s.keyBytes := rfl
@[simp] theorem State.observe_draws (f : Observer → Observer) : (s.observe f).draws = s.draws := rfl

/-! ### readFrame -/

@[simp] theorem State.readFrame_lampMask (f : FrameRead) : (s.readFrame f).lampMask = s.lampMask := rfl
@[simp] theorem State.readFrame_autoIncrement (f : FrameRead) : (s.readFrame f).autoIncrement = s.autoIncrement := rfl
@[simp] theorem State.readFrame_init (f : FrameRead) : (s.readFrame f).init = s.init := rfl
@[simp] theorem State.readFrame_fault (f : FrameRead) : (s.readFrame f).fault = s.fault := rfl
@[simp] theorem State.readFrame_port (f : FrameRead) : (s.readFrame f).port = s.port := rfl
@[simp] theorem State.readFrame_scanBuffer (f : FrameRead) : (s.readFrame f).scanBuffer = s.scanBuffer := rfl
@[simp] theorem State.readFrame_busRead (f : FrameRead) : (s.readFrame f).busRead = s.busRead ++ f.events := rfl
@[simp] theorem State.readFrame_busUnread (f : FrameRead) : (s.readFrame f).busUnread = f.rest := rfl
@[simp] theorem State.readFrame_obs (f : FrameRead) : (s.readFrame f).obs = s.obs := rfl
@[simp] theorem State.readFrame_requests (f : FrameRead) : (s.readFrame f).requests = s.requests := rfl
@[simp] theorem State.readFrame_reqIndex (f : FrameRead) : (s.readFrame f).reqIndex = s.reqIndex := rfl
@[simp] theorem State.readFrame_responses (f : FrameRead) : (s.readFrame f).responses = s.responses := rfl
@[simp] theorem State.readFrame_keyBytes (f : FrameRead) : (s.readFrame f).keyBytes = s.keyBytes := rfl
@[simp] theorem State.readFrame_draws (f : FrameRead) : (s.readFrame f).draws = s.draws := rfl

/-! ### issue -/

@[simp] theorem State.issue_lampMask (ws : List RequestWord) : (s.issue ws).lampMask = s.lampMask := rfl
@[simp] theorem State.issue_autoIncrement (ws : List RequestWord) :
    (s.issue ws).autoIncrement = s.autoIncrement := rfl
@[simp] theorem State.issue_init (ws : List RequestWord) : (s.issue ws).init = s.init := rfl
@[simp] theorem State.issue_fault (ws : List RequestWord) : (s.issue ws).fault = s.fault := rfl
@[simp] theorem State.issue_port (ws : List RequestWord) : (s.issue ws).port = s.port := rfl
@[simp] theorem State.issue_scanBuffer (ws : List RequestWord) : (s.issue ws).scanBuffer = s.scanBuffer := rfl
@[simp] theorem State.issue_busRead (ws : List RequestWord) : (s.issue ws).busRead = s.busRead := rfl
@[simp] theorem State.issue_busUnread (ws : List RequestWord) : (s.issue ws).busUnread = s.busUnread := rfl
@[simp] theorem State.issue_obs (ws : List RequestWord) : (s.issue ws).obs = s.obs := rfl
@[simp] theorem State.issue_requests (ws : List RequestWord) : (s.issue ws).requests = ws := rfl
@[simp] theorem State.issue_reqIndex (ws : List RequestWord) : (s.issue ws).reqIndex = s.reqIndex + 1 := rfl
@[simp] theorem State.issue_responses (ws : List RequestWord) : (s.issue ws).responses = s.responses := rfl
@[simp] theorem State.issue_keyBytes (ws : List RequestWord) : (s.issue ws).keyBytes = s.keyBytes := rfl
@[simp] theorem State.issue_draws (ws : List RequestWord) : (s.issue ws).draws = s.draws := rfl

end Sys2Proof.Machine
end

