-- ==== Sys2Proof/Laws/Trace.lean ====
section
/-! SUPPORT. Facts about bus events and frames: what a frame does to the port, how frames are taken off a trace, and
that taking a frame off agrees with reading the trace event by event. -/

namespace Sys2Proof.Machine

open Sys2Proof

/-! ### The port -/

@[simp] theorem Port.after_stb_dir_tx (p : Port) (o : BitOrder) (b : Byte) :
    (p.after (.tx o b)).stb = p.stb ∧ (p.after (.tx o b)).dir = p.dir := ⟨rfl, rfl⟩

/-- Writing bytes leaves strobe and direction, and the data level is UNKNOWN after the first (20_memory.md R70). -/
theorem Port.foldl_txBytes (p : Port) (bs : List Byte) :
    (bs.map txByte).foldl Port.after p = { p with dio := if bs = [] then p.dio else .unknown } := by
  induction bs generalizing p with
  | nil => rfl
  | cons b bs ih => simp [ih, txByte, Port.after]

/-- The port after a write frame (40_framer.md R141). -/
theorem Port.foldl_frameEvents (p : Port) (bs : List Byte) :
    (frameEvents bs).foldl Port.after p = { p with stb := .high, dio := if bs = [] then p.dio else .unknown } := by
  simp [frameEvents, List.foldl_append, Port.foldl_txBytes, Port.after]

/-- The port after a scan frame (40_framer.md R144). -/
@[simp] theorem Port.foldl_scanEvents (p : Port) (b : ScanBytes) :
    (scanEvents b).foldl Port.after p = { stb := .high, dir := .output, dio := .low, dioSet := .low } := rfl

/-! ### Reading a trace -/

theorem replay_append (p : Port) (es fs : List Event) :
    replay p (es ++ fs) = (replay p es).bind (fun q => replay q fs) := by
  induction es generalizing p with
  | nil => rfl
  | cons e es ih =>
    simp only [List.cons_append, replay]
    split
    · exact ih _
    · rfl

/-- A legal trace leaves the port that its events make. -/
theorem replay_eq_foldl {p q : Port} {es : List Event} (h : replay p es = some q) : es.foldl Port.after p = q := by
  induction es generalizing p with
  | nil => simpa [replay] using h
  | cons e es ih =>
    simp only [replay] at h
    split at h
    · exact ih h
    · cases h

theorem observeEvent_fst (x : Option (List Byte) × Observer) (e : Event) :
    (observeEvent x e).1 = openFrame x.1 e := by
  obtain ⟨pend, o⟩ := x
  cases e <;> cases pend <;> rfl

/-- Taking a frame off a list of events splits the list, and reading the frame event by event is reading its bytes. -/
theorem takeFrame_spec {pend : Option (List Byte)} {es : List Event} {f : FrameRead}
    (h : takeFrame pend es = some f) :
    es = f.events ++ f.rest ∧ ∀ o, f.events.foldl observeEvent (pend, o) = (none, readBytes f.bytes o) := by
  induction es generalizing pend f with
  | nil => cases h
  | cons e es ih =>
    unfold takeFrame at h
    split at h
    · obtain rfl := Option.some.inj h
      exact ⟨rfl, fun o => rfl⟩
    · rename_i hne
      obtain ⟨g, hg, rfl⟩ := Option.map_eq_some_iff.1 h
      obtain ⟨h1, h2⟩ := ih hg
      refine ⟨by simp [← h1], fun o => ?_⟩
      have : observeEvent (pend, o) e = (openFrame pend e, o) := by
        unfold observeEvent
        split
        · rename_i bytes hp
          exact (hne bytes rfl hp).elim
        · rfl
      simp only [List.foldl_cons, this, h2]

/-- The bytes of a frame under way are taken with it. -/
theorem takeFrame_txBytes (pend bs : List Byte) (es : List Event) :
    takeFrame (some pend) (bs.map txByte ++ .stbHigh :: es)
      = some ⟨bs.map txByte ++ [.stbHigh], pend ++ bs, es⟩ := by
  induction bs generalizing pend with
  | nil => simp [takeFrame]
  | cons b bs ih => simp [takeFrame, txByte, openFrame, ih (pend ++ [b])]

/-- A write frame at the head of a list of events is taken off whole. -/
theorem takeFrame_frameEvents (bs : List Byte) (es : List Event) :
    takeFrame none (frameEvents bs ++ es) = some ⟨frameEvents bs, bs, es⟩ := by
  have h := takeFrame_txBytes [] bs es
  simp only [List.nil_append] at h
  simp [frameEvents, takeFrame, openFrame, h]

/-- A scan frame at the head of a list of events is taken off whole; its only Tx byte is the command. -/
theorem takeFrame_scanEvents (b : ScanBytes) (es : List Event) :
    takeFrame none (scanEvents b ++ es) = some ⟨scanEvents b, [cmdKeyScan], es⟩ := by
  simp [scanEvents, takeFrame, openFrame, txByte]

@[simp] theorem takeFrame_nil (pend : Option (List Byte)) : takeFrame pend [] = none := by
  cases pend <;> rfl

end Sys2Proof.Machine
end

