-- ==== Sys2Proof/Laws/Ops.lean ====
section
/-! SUPPORT. One lemma for each shared operation that says everything it can do. -/

namespace Sys2Proof.Machine

open Sys2Proof

/-! ### Emission -/

@[simp] theorem State.emit_nil (s : State) : s.emit [] = s := by
  simp [State.emit]

theorem State.emit_emit (s : State) (es fs : List Event) : (s.emit es).emit fs = s.emit (es ++ fs) := by
  simp [State.emit, List.foldl_append]

theorem State.trace_emit (s : State) (es : List Event) : (s.emit es).trace = s.trace ++ es := by
  simp [State.trace, State.emit]

/-- The events of a list of register writes, frame after frame (40_framer.md R146). -/
theorem State.sendWrites_eq_emit (s : State) (ws : List RegWrite) :
    s.sendWrites ws = s.emit (ws.flatMap (fun w => frameEvents [w.1, w.2])) := by
  induction ws generalizing s with
  | nil => simp [State.sendWrites]
  | cons w ws ih =>
    have h := ih (s.sendWrite w.1 w.2)
    simp only [State.sendWrites] at h
    simp only [State.sendWrites, List.foldl_cons, List.flatMap_cons]
    rw [h, State.sendWrite, State.emit_emit]

/-- The port after register writes (40_framer.md R141). -/
theorem Port.foldl_writes (p : Port) (ws : List RegWrite) (h : ws ≠ []) :
    (ws.flatMap (fun w => frameEvents [w.1, w.2])).foldl Port.after p = { p with stb := .high, dio := .unknown } := by
  induction ws generalizing p with
  | nil => exact absurd rfl h
  | cons w ws ih =>
    rw [List.flatMap_cons, List.foldl_append, Port.foldl_frameEvents]
    by_cases hw : ws = []
    · simp [hw]
    · simp [ih _ hw]

/-! ### Acceptance -/

theorem accept_next {w : RequestWord} {run : State → State} {s t : State} (h : accept w run s = .next t) :
    s.fault = none ∧ (s.init = true ∧ t = run s ∨ s.init = false ∧ t = s.raise (.notInitialized w)) := by
  unfold accept at h
  split at h
  · cases h
  · rename_i hf
    split at h <;> rename_i hi <;> cases h
    · exact ⟨hf, .inl ⟨hi, rfl⟩⟩
    · exact ⟨hf, .inr ⟨by simpa using hi, rfl⟩⟩

theorem accept_ready {w : RequestWord} {run : State → State} {s : State} (h : s.Ready) :
    accept w run s = .next (run s) := by
  simp [accept, h.1, h.2]

theorem accept_notReady {w : RequestWord} {run : State → State} {s : State} (hf : s.fault = none)
    (hi : s.init = false) : accept w run s = .next (s.raise (.notInitialized w)) := by
  simp [accept, hf, hi]

theorem accept_faulted {w : RequestWord} {run : State → State} {s : State} {f : Fault} (hf : s.fault = some f) :
    accept w run s = .fault f := by
  simp [accept, hf]

theorem acceptReset_next {run : State → State} {s t : State} (h : acceptReset run s = .next t) :
    s.fault = none ∧ t = run s := by
  unfold acceptReset at h
  split at h
  · cases h
  · rename_i hf
    cases h
    exact ⟨hf, rfl⟩

theorem acceptReset_running {run : State → State} {s : State} (h : s.fault = none) :
    acceptReset run s = .next (run s) := by
  simp [acceptReset, h]

theorem acceptReset_faulted {run : State → State} {s : State} {f : Fault} (hf : s.fault = some f) :
    acceptReset run s = .fault f := by
  simp [acceptReset, hf]

/-! ### The observer -/

/-- A data byte at a register is written there, and the pointer moves as the mode says. -/
theorem Observer.writeData_inside {o : Observer} {p : Nat} (d : Byte) (hp : o.ptr = some p) (h : p < regCount) :
    o.writeData d = { o with ram := Memory.write o.ram (regBase + p) d, ptr := o.mode.pointerAfter p } := by
  simp [Observer.writeData, hp, h]

/-- A data byte anywhere else makes every field UNKNOWN. -/
theorem Observer.writeData_outside {o : Observer} (d : Byte) (h : ∀ p, o.ptr = some p → regCount ≤ p) :
    o.writeData d = Observer.allUnknown := by
  unfold Observer.writeData
  split
  · rename_i p hp
    rw [if_neg (Nat.not_lt.2 (h p hp))]
  · rfl

/-- One data byte keeps the canonical form of the registers. -/
theorem Observer.wf_writeData {o : Observer} (d : Byte) (h : Memory.wf o.ram) : Memory.wf (o.writeData d).ram := by
  by_cases hp : ∃ p, o.ptr = some p ∧ p < regCount
  · obtain ⟨p, hp, hlt⟩ := hp
    rw [Observer.writeData_inside d hp hlt]
    exact Memory.wf_write d h (by simp [isRegister]; omega)
  · rw [Observer.writeData_outside d (fun p h1 => Nat.not_lt.1 (fun h2 => hp ⟨p, h1, h2⟩))]
    exact Memory.wf_nil

/-- What a write frame can do to the observer: it keeps mode and display and marks the frame, or makes every field
UNKNOWN; it keeps the canonical form of the registers (20_memory.md R84). -/
theorem Observer.writeFrame_cases (o : Observer) (a : Nat) (data : List Byte) :
    (((o.writeFrame a data).mode = o.mode ∧ (o.writeFrame a data).display = o.display ∧
        (o.writeFrame a data).keys = some false) ∨ o.writeFrame a data = Observer.allUnknown) ∧
      (Memory.wf o.ram → Memory.wf (o.writeFrame a data).ram) := by
  unfold Observer.writeFrame
  generalize ho : { o with ptr := some a, keys := some false : Observer } = o'
  have : ((o'.mode = o.mode ∧ o'.display = o.display ∧ o'.keys = some false) ∨ o' = Observer.allUnknown) ∧
      (Memory.wf o.ram → Memory.wf o'.ram) := by
    subst ho
    exact ⟨.inl ⟨rfl, rfl, rfl⟩, id⟩
  clear ho
  induction data generalizing o' with
  | nil => exact this
  | cons d data ih =>
    refine ih _ ⟨?_, fun h => Observer.wf_writeData d (this.2 h)⟩
    obtain hk | rfl := this.1
    · by_cases hp : ∃ p, o'.ptr = some p ∧ p < regCount
      · obtain ⟨p, hp, hlt⟩ := hp
        rw [Observer.writeData_inside d hp hlt]
        exact .inl hk
      · exact .inr (Observer.writeData_outside d (fun p h1 => Nat.not_lt.1 (fun h2 => hp ⟨p, h1, h2⟩)))
    · exact .inr rfl

/-- A write frame with one data byte writes the addressed register, whatever the mode (20_memory.md R84). -/
theorem Observer.writeFrame_one (o : Observer) {a : Nat} (d : Byte) (ha : a < regCount) :
    o.writeFrame a [d]
      = { o with ram := Memory.write o.ram (regBase + a) d, ptr := o.mode.pointerAfter a, keys := some false } :=
  Observer.writeData_inside (o := { o with ptr := some a, keys := some false }) d rfl ha

end Sys2Proof.Machine
end

