-- ==== Sys2Proof/Laws/PerInstr.lean ====
section
/-! SUPPORT. Statements made per instruction, one lemma per constructor. The family TableRow: the code the encoder
gives an instruction is one of its row's words in spec/opcode_table.json. -/

namespace Sys2Proof.Laws.TableRow

open Sys2Proof

/-- The code is a request word of row number n of the request table. -/
def requestRow (n : Nat) (c : Code) : Prop :=
  match c, requestTable[n]? with
  | .request w, some r => w &&& r.mask = r.pattern
  | _, _ => False

/-- The code is a frame whose command byte is of row number n of the command table. -/
def commandRow (n : Nat) (c : Code) : Prop :=
  match c, commandTable[n]? with
  | .frame (b :: _), some r => b &&& r.mask = r.pattern
  | _, _ => False

/-- An instruction's code lies in its row of the opcode table. -/
def Statement : Instr → Prop
  | .reset => requestRow 0 (encode .reset)
  | .setBright level => requestRow 1 (encode (.setBright level))
  | .setLamp num on => requestRow 2 (encode (.setLamp num on))
  | .getLamp num => requestRow 3 (encode (.getLamp num))
  | .setGrid pos code dp => requestRow 4 (encode (.setGrid pos code dp))
  | .clearGrid pos => requestRow 5 (encode (.clearGrid pos))
  | .clear => requestRow 6 (encode .clear)
  | .showNum value dpPos start => requestRow 7 (encode (.showNum value dpPos start))
  | .gauge g1 g2 g3 g4 g5 => requestRow 8 (encode (.gauge g1 g2 g3 g4 g5))
  | .scan => requestRow 9 (encode .scan)
  | .autoIncOn => commandRow 0 (encode .autoIncOn)
  | .keyScan => commandRow 1 (encode .keyScan)
  | .autoIncOff => commandRow 2 (encode .autoIncOff)
  | .displayOff => commandRow 3 (encode .displayOff)
  | .displayOn levelMinus1 => commandRow 4 (encode (.displayOn levelMinus1))
  | .addrGrid posMinus1 data => commandRow 5 (encode (.addrGrid posMinus1 data))
  | .addrLamp posMinus1 data => commandRow 6 (encode (.addrLamp posMinus1 data))

theorem reset : Statement .reset := by
  show _ &&& _ = _
  decide

theorem setBright (level : Byte) : Statement (.setBright level) := by
  show (0x02#8 ++ 0#48 ++ level : RequestWord) &&& ((BitVec.allOnes 8 ++ BitVec.allOnes 48) ++ 0#8) = ((0x02#8 ++ 0#48) ++ 0#8)
  rw [BitVec.and_append]
  simp only [BitVec.and_zero]
  congr 1

theorem setLamp (num : Byte) (on : Bool) : Statement (.setLamp num on) := by
  show (0x03#8 ++ 0#47 ++ BitVec.ofBool on ++ num : RequestWord) &&& (((BitVec.allOnes 8 ++ BitVec.allOnes 47) ++ 0#1) ++ 0#8) = (((0x03#8 ++ 0#47) ++ 0#1) ++ 0#8)
  rw [BitVec.and_append, BitVec.and_append]
  simp only [BitVec.and_zero]
  congr 1

theorem getLamp (num : Byte) : Statement (.getLamp num) := by
  show (0x04#8 ++ 0#48 ++ num : RequestWord) &&& ((BitVec.allOnes 8 ++ BitVec.allOnes 48) ++ 0#8) = ((0x04#8 ++ 0#48) ++ 0#8)
  rw [BitVec.and_append]
  simp only [BitVec.and_zero]
  congr 1

theorem setGrid (pos code : Byte) (dp : Bool) : Statement (.setGrid pos code dp) := by
  show (0x05#8 ++ 0#39 ++ BitVec.ofBool dp ++ code ++ pos : RequestWord) &&& ((((BitVec.allOnes 8 ++ BitVec.allOnes 39) ++ 0#1) ++ 0#8) ++ 0#8) = ((((0x05#8 ++ 0#39) ++ 0#1) ++ 0#8) ++ 0#8)
  rw [BitVec.and_append, BitVec.and_append, BitVec.and_append]
  simp only [BitVec.and_zero]
  congr 1

theorem clearGrid (pos : Byte) : Statement (.clearGrid pos) := by
  show (0x06#8 ++ 0#48 ++ pos : RequestWord) &&& ((BitVec.allOnes 8 ++ BitVec.allOnes 48) ++ 0#8) = ((0x06#8 ++ 0#48) ++ 0#8)
  rw [BitVec.and_append]
  simp only [BitVec.and_zero]
  congr 1

theorem clear : Statement .clear := by
  show _ &&& _ = _
  decide

theorem showNum (value : BitVec 32) (dpPos start : Byte) : Statement (.showNum value dpPos start) := by
  show (0x08#8 ++ 0#8 ++ start ++ dpPos ++ value : RequestWord) &&& ((((BitVec.allOnes 8 ++ BitVec.allOnes 8) ++ 0#8) ++ 0#8) ++ 0#32) = ((((0x08#8 ++ 0#8) ++ 0#8) ++ 0#8) ++ 0#32)
  rw [BitVec.and_append, BitVec.and_append, BitVec.and_append]
  simp only [BitVec.and_zero]
  congr 1

theorem gauge (g1 g2 g3 g4 g5 : Byte) : Statement (.gauge g1 g2 g3 g4 g5) := by
  show (0x09#8 ++ 0#16 ++ g5 ++ g4 ++ g3 ++ g2 ++ g1 : RequestWord) &&& ((((((BitVec.allOnes 8 ++ BitVec.allOnes 16) ++ 0#8) ++ 0#8) ++ 0#8) ++ 0#8) ++ 0#8) = ((((((0x09#8 ++ 0#16) ++ 0#8) ++ 0#8) ++ 0#8) ++ 0#8) ++ 0#8)
  rw [BitVec.and_append, BitVec.and_append, BitVec.and_append, BitVec.and_append, BitVec.and_append]
  simp only [BitVec.and_zero]
  congr 1

theorem scan : Statement .scan := by
  show _ &&& _ = _
  decide

theorem autoIncOn : Statement .autoIncOn := by
  show _ &&& _ = _
  decide

theorem keyScan : Statement .keyScan := by
  show _ &&& _ = _
  decide

theorem autoIncOff : Statement .autoIncOff := by
  show _ &&& _ = _
  decide

theorem displayOff : Statement .displayOff := by
  show _ &&& _ = _
  decide

theorem displayOn (levelMinus1 : BitVec 3) : Statement (.displayOn levelMinus1) := by
  show cmdDisplay (levelMinus1.toNat + 1) &&& 0xF8#8 = 0x88#8
  revert levelMinus1
  decide

theorem addrGrid (posMinus1 : BitVec 3) (data : List Byte) : Statement (.addrGrid posMinus1 data) := by
  show gridByte posMinus1 &&& 0xF1#8 = 0xC0#8
  revert posMinus1
  decide

theorem addrLamp (posMinus1 : BitVec 3) (data : List Byte) : Statement (.addrLamp posMinus1 data) := by
  show lampByte posMinus1 &&& 0xF1#8 = 0xC1#8
  clear data
  revert posMinus1
  decide

end Sys2Proof.Laws.TableRow
end

