-- ==== Sys2Proof/Laws/Step.lean ====
section
/-! SUPPORT. What a step can do, said once, and what a request can do to the state. -/

namespace Sys2Proof.Machine

open Sys2Proof

/-- Every way in which a step answers a next state. -/
theorem step_cases {s t : State} (h : step s = .next t) :
    (∃ f i, takeFrame none s.busUnread = some f ∧ decode (.frame f.bytes) = .ok i ∧ exec i (s.readFrame f) = .next t) ∨
    (∃ f r, takeFrame none s.busUnread = some f ∧ decode (.frame f.bytes) = .error r ∧
      t = (s.readFrame f).observe (fun _ => Observer.allUnknown)) ∨
    (takeFrame none s.busUnread = none ∧ s.fault = none ∧ s.requests = [] ∧ t = s) ∨
    (∃ w ws i, takeFrame none s.busUnread = none ∧ s.fault = none ∧ s.requests = w :: ws ∧
      decode (.request w) = .ok i ∧ exec i (s.issue ws) = .next t) ∨
    (∃ w ws r, takeFrame none s.busUnread = none ∧ s.fault = none ∧ s.requests = w :: ws ∧
      decode (.request w) = .error r ∧ t = (s.issue ws).raise (.illegalRequest w)) := by
  unfold step fetch at h
  cases hf : takeFrame none s.busUnread with
  | some f =>
    simp only [hf, fetchFrame] at h
    cases hd : decode (.frame f.bytes) with
    | ok i =>
      simp only [hd] at h
      exact .inl ⟨f, i, rfl, hd, h⟩
    | error r =>
      simp only [hd] at h
      cases h
      exact .inr (.inl ⟨f, r, rfl, hd, rfl⟩)
  | none =>
    simp only [hf, fetchRequest] at h
    cases hs : s.fault with
    | some g =>
      simp only [hs] at h
      cases h
    | none =>
      simp only [hs] at h
      cases hr : s.requests with
      | nil =>
        simp only [hr] at h
        cases h
        exact .inr (.inr (.inl ⟨rfl, rfl, rfl, rfl⟩))
      | cons w ws =>
        simp only [hr, fetchWord] at h
        cases hd : decode (.request w) with
        | ok i =>
          simp only [hd] at h
          exact .inr (.inr (.inr (.inl ⟨w, ws, i, rfl, rfl, rfl, hd, h⟩)))
        | error r =>
          simp only [hd] at h
          cases h
          exact .inr (.inr (.inr (.inr ⟨w, ws, r, rfl, rfl, rfl, hd, rfl⟩)))

/-- A frame that waits is read before anything else. -/
theorem step_frame {s : State} {f : FrameRead} {i : Instr} (hf : takeFrame none s.busUnread = some f)
    (hd : decode (.frame f.bytes) = .ok i) : step s = exec i (s.readFrame f) := by
  simp [step, fetch, hf, fetchFrame, hd]

/-- With no frame waiting and no fault, the next request word is taken. -/
theorem step_word {s : State} {w : RequestWord} {ws : List RequestWord} {i : Instr}
    (hf : takeFrame none s.busUnread = none) (hs : s.fault = none) (hr : s.requests = w :: ws)
    (hd : decode (.request w) = .ok i) : step s = exec i (s.issue ws) := by
  simp [step, fetch, hf, fetchRequest, hs, hr, fetchWord, hd]

/-- Every request that runs emits whole frames and leaves the observer, the host's stream and the events already read
as they were. -/
theorem exec_request_emits {i : Instr} {s t : State} (hi : i.isRequest = true) (h : exec i s = .next t) :
    t.busRead = s.busRead ∧ t.obs = s.obs ∧ t.requests = s.requests ∧ t.reqIndex = s.reqIndex ∧
      ∃ es, t.busUnread = s.busUnread ++ es ∧ t.port = es.foldl Port.after s.port := by
  have emitted : ∀ (u : State) (es : List Event), u.busRead = s.busRead → u.obs = s.obs → u.requests = s.requests →
      u.reqIndex = s.reqIndex → u.busUnread = s.busUnread ++ es → u.port = es.foldl Port.after s.port →
      u.busRead = s.busRead ∧ u.obs = s.obs ∧ u.requests = s.requests ∧ u.reqIndex = s.reqIndex ∧
        ∃ es, u.busUnread = s.busUnread ++ es ∧ u.port = es.foldl Port.after s.port :=
    fun u es h1 h2 h3 h4 h5 h6 => ⟨h1, h2, h3, h4, es, h5, h6⟩
  cases i with
  | reset =>
    obtain ⟨-, rfl⟩ := acceptReset_next h
    refine emitted _ (frameEvents [cmdAutoIncOn] ++ frameEvents (BitVec.ofNat 8 regBase :: bulkZeros)
      ++ frameEvents [cmdAutoIncOff]) rfl rfl rfl rfl ?_ ?_
    · simp [resetBody, State.sendCommand, State.sendBulk]
    · simp [resetBody, State.sendCommand, State.sendBulk, List.foldl_append]
  | setBright level =>
    obtain ⟨-, ⟨-, rfl⟩ | ⟨-, rfl⟩⟩ := accept_next h
    · exact emitted _ _ rfl rfl rfl rfl rfl rfl
    · exact emitted _ [] rfl rfl rfl rfl (by simp) rfl
  | setLamp num on =>
    obtain ⟨-, ⟨-, rfl⟩ | ⟨-, rfl⟩⟩ := accept_next h
    · exact emitted _ _ rfl rfl rfl rfl rfl rfl
    · exact emitted _ [] rfl rfl rfl rfl (by simp) rfl
  | getLamp num =>
    obtain ⟨-, ⟨-, rfl⟩ | ⟨-, rfl⟩⟩ := accept_next h
    · exact emitted _ [] rfl rfl rfl rfl (by simp [getLampBody]) rfl
    · exact emitted _ [] rfl rfl rfl rfl (by simp) rfl
  | setGrid pos code dp =>
    obtain ⟨-, ⟨-, rfl⟩ | ⟨-, rfl⟩⟩ := accept_next h
    · exact emitted _ _ rfl rfl rfl rfl rfl rfl
    · exact emitted _ [] rfl rfl rfl rfl (by simp) rfl
  | clearGrid pos =>
    obtain ⟨-, ⟨-, rfl⟩ | ⟨-, rfl⟩⟩ := accept_next h
    · exact emitted _ _ rfl rfl rfl rfl rfl rfl
    · exact emitted _ [] rfl rfl rfl rfl (by simp) rfl
  | clear =>
    obtain ⟨-, ⟨-, rfl⟩ | ⟨-, rfl⟩⟩ := accept_next h
    · rw [State.sendWrites_eq_emit]
      exact emitted _ _ rfl rfl rfl rfl rfl rfl
    · exact emitted _ [] rfl rfl rfl rfl (by simp) rfl
  | showNum value dpPos start =>
    obtain ⟨-, ⟨-, rfl⟩ | ⟨-, rfl⟩⟩ := accept_next h
    · rw [State.sendWrites_eq_emit]
      exact emitted _ _ rfl rfl rfl rfl rfl rfl
    · exact emitted _ [] rfl rfl rfl rfl (by simp) rfl
  | gauge g1 g2 g3 g4 g5 =>
    obtain ⟨-, ⟨-, rfl⟩ | ⟨-, rfl⟩⟩ := accept_next h
    · rw [State.sendWrites_eq_emit]
      exact emitted _ _ rfl rfl rfl rfl rfl rfl
    · exact emitted _ [] rfl rfl rfl rfl (by simp) rfl
  | scan =>
    obtain ⟨-, ⟨-, rfl⟩ | ⟨-, rfl⟩⟩ := accept_next h
    · exact emitted _ (scanEvents s.nextScan) rfl rfl rfl rfl rfl rfl
    · exact emitted _ [] rfl rfl rfl rfl (by simp) rfl
  | autoIncOn => cases hi
  | keyScan => cases hi
  | autoIncOff => cases hi
  | displayOff => cases hi
  | displayOn _ => cases hi
  | addrGrid _ _ => cases hi
  | addrLamp _ _ => cases hi

/-- A bus command changes the observer and nothing else. -/
theorem exec_command_observes {i : Instr} (s : State) (hi : i.isRequest = false) :
    ∃ f, exec i s = .next (s.observe f) := by
  cases i with
  | reset => cases hi
  | setBright _ => cases hi
  | setLamp _ _ => cases hi
  | getLamp _ => cases hi
  | setGrid _ _ _ => cases hi
  | clearGrid _ => cases hi
  | clear => cases hi
  | showNum _ _ _ => cases hi
  | gauge _ _ _ _ _ => cases hi
  | scan => cases hi
  | autoIncOn => exact ⟨_, rfl⟩
  | keyScan => exact ⟨_, rfl⟩
  | autoIncOff => exact ⟨_, rfl⟩
  | displayOff => exact ⟨_, rfl⟩
  | displayOn _ => exact ⟨_, rfl⟩
  | addrGrid _ _ => exact ⟨_, rfl⟩
  | addrLamp _ _ => exact ⟨_, rfl⟩

end Sys2Proof.Machine
end

