-- ==== Sys2Proof/Tests/Slice0.lean ====
section
/-! SUPPORT. Tests and witnesses. Expected values come from 95_test_vectors.md (named by section) or are worked out by
hand from the rule named. Vectors that need a FONT take the default of 41_lookup.md R177 as an argument, and those that
need a GAUGE_SEG take the layout REF of 92_eei_decisions.md D9, the values `GaugeSeg` has by default. -/

namespace Sys2Proof.Tests

open Sys2Proof Sys2Proof.Machine

/-! ### Helpers -/

/-- The next state, if the outcome is one. -/
def nextOf (o : Host.Outcome State Fault Refusal) : Option State :=
  match o with
  | .next t => some t
  | .fault _ => none
  | .refused _ => none

/-- The fault, if the outcome is one. -/
def faultOf (o : Host.Outcome State Fault Refusal) : Option Fault :=
  match o with
  | .next _ => none
  | .fault f => some f
  | .refused _ => none

/-- A chip after a RESET and SETBRIGHT 5: FIXED mode, two registers written. -/
def chip : Observer :=
  { mode := .fixed, ptr := some 2, ram := [(0xC0, 0x3F#8), (0xC3, 0x01#8)], display := .level 5, keys := some false }

/-- A block that accepts requests, with lamp mirror 0x0E. -/
def ready : State :=
  { State.reset with lampMask := some 0x0E#8, autoIncrement := some false, init := true, obs := chip }

/-- A block in which a fault is recorded. -/
def faulted : State := { ready with fault := some (.illegalRequest 0#64) }

/-- The frame that sends 0x8C has been sent and not read. -/
def displayFramePending (s : State) : State := { s with busUnread := [.stbLow, .tx .lsbFirst 0x8C#8, .stbHigh] }

/-- A frame with the unknown command byte 0x80 has been sent and not read. -/
def unknownFramePending (s : State) : State := { s with busUnread := [.stbLow, .tx .lsbFirst 0x80#8, .stbHigh] }

/-! ### Well-formedness: each check accepts a term and refuses one -/

theorem test_wf_grid_one_byte : (Instr.addrGrid 2#3 [0x5B#8]).wf = true := by decide
theorem test_wf_grid_bulk : (Instr.addrGrid 0#3 (List.replicate 16 0x00#8)).wf = true := by decide
theorem test_wf_grid_no_byte_refused : (Instr.addrGrid 2#3 []).wf = false := by decide
theorem test_wf_grid_two_bytes_refused : (Instr.addrGrid 2#3 [0x00#8, 0x00#8]).wf = false := by decide
theorem test_wf_grid_bulk_elsewhere_refused : (Instr.addrGrid 1#3 (List.replicate 16 0x00#8)).wf = false := by decide
theorem test_wf_grid_bulk_nonzero_refused : (Instr.addrGrid 0#3 (List.replicate 16 0x01#8)).wf = false := by decide
theorem test_wf_lamp_lit : (Instr.addrLamp 7#3 [0x01#8]).wf = true := by decide
theorem test_wf_lamp_unlit : (Instr.addrLamp 7#3 [0x00#8]).wf = true := by decide
theorem test_wf_lamp_other_byte_refused : (Instr.addrLamp 7#3 [0x02#8]).wf = false := by decide
theorem test_wf_lamp_no_byte_refused : (Instr.addrLamp 7#3 []).wf = false := by decide
theorem test_wf_request : (Instr.setLamp 255#8 true).wf = true := by decide

/-! ### Decoding: a word of every constructor, field by field (30_encoding.md R103, R110 to R112) -/

theorem test_decode_reset : decode (.request (0b00000001#8 ++ 0#56)) = .ok .reset := by rfl
theorem test_decode_setBright : decode (.request (0b00000010#8 ++ 0#48 ++ 0b00001000#8)) = .ok (.setBright 8#8) := by rfl
theorem test_decode_setLamp :
    decode (.request (0b00000011#8 ++ 0#47 ++ 0b1#1 ++ 0b00000011#8)) = .ok (.setLamp 3#8 true) := by rfl
theorem test_decode_getLamp : decode (.request (0b00000100#8 ++ 0#48 ++ 0b11001000#8)) = .ok (.getLamp 200#8) := by rfl
theorem test_decode_setGrid :
    decode (.request (0b00000101#8 ++ 0#39 ++ 0b1#1 ++ 0b00001010#8 ++ 0b00000100#8)) = .ok (.setGrid 4#8 10#8 true) := by
  rfl
theorem test_decode_clearGrid : decode (.request (0b00000110#8 ++ 0#48 ++ 0b01001101#8)) = .ok (.clearGrid 77#8) := by rfl
theorem test_decode_clear : decode (.request (0b00000111#8 ++ 0#56)) = .ok .clear := by rfl
theorem test_decode_showNum :
    decode (.request (0b00001000#8 ++ 0#8 ++ 0b00000001#8 ++ 0b00000010#8 ++ 0xFFFFFFD6#32))
      = .ok (.showNum (-42#32) 2#8 1#8) := by rfl
theorem test_decode_gauge :
    decode (.request (0b00001001#8 ++ 0#16 ++ 0b00000110#8 ++ 0b00000111#8 ++ 0b00000010#8 ++ 0b00001111#8 ++ 0b00000100#8))
      = .ok (.gauge 4#8 15#8 2#8 7#8 6#8) := by rfl
theorem test_decode_scan : decode (.request (0b00001010#8 ++ 0#56)) = .ok .scan := by rfl
theorem test_decode_autoIncOn : decode (.frame [0b01000000#8]) = .ok .autoIncOn := by rfl
theorem test_decode_keyScan : decode (.frame [0b01000010#8]) = .ok .keyScan := by rfl
theorem test_decode_autoIncOff : decode (.frame [0b01000100#8]) = .ok .autoIncOff := by rfl
theorem test_decode_displayOff : decode (.frame [0b10000111#8]) = .ok .displayOff := by rfl
theorem test_decode_displayOn : decode (.frame [0b10001#5 ++ 0b111#3]) = .ok (.displayOn 7#3) := by rfl
theorem test_decode_addrGrid :
    decode (.frame [0b1100#4 ++ 0b010#3 ++ 0b0#1, 0x5B#8]) = .ok (.addrGrid 2#3 [0x5B#8]) := by rfl
theorem test_decode_addrLamp :
    decode (.frame [0b1100#4 ++ 0b111#3 ++ 0b1#1, 0x01#8]) = .ok (.addrLamp 7#3 [0x01#8]) := by rfl

/-- 95_test_vectors.md sections 2.3 to 2.6: words as they stand there. -/
theorem test_decode_vectors :
    decodeTableWord 64 0x0200000000000005 = some (.setBright 5#8) ∧
    decodeTableWord 64 0x03000000000001FF = some (.setLamp 255#8 true) ∧
    decodeTableWord 64 0x050000000001FF02 = some (.setGrid 2#8 255#8 true) ∧
    decodeTableWord 64 0x0800C80100000005 = some (.showNum 5#32 1#8 200#8) ∧
    decodeTableWord 64 0x0900000310000508 = some (.gauge 8#8 5#8 0#8 16#8 3#8) := by decide

/-- 95_test_vectors.md section 2.8: what is no request, and why. -/
theorem test_decode_reserved :
    decode (.request 0#64) = .error (.reservedOpcode 0#64) ∧
    decode (.request 0x0B00000000000000#64) = .error (.reservedOpcode 0x0B00000000000000#64) ∧
    decode (.request 0xFF00000000000000#64) = .error (.reservedOpcode 0xFF00000000000000#64) := ⟨rfl, rfl, rfl⟩
theorem test_decode_must_be_zero :
    decode (.request 0x0100000000000001#64) = .error (.mustBeZero 0x0100000000000001#64) ∧
    decode (.request 0x0200000000000100#64) = .error (.mustBeZero 0x0200000000000100#64) ∧
    decode (.request 0x0300000000000201#64) = .error (.mustBeZero 0x0300000000000201#64) ∧
    decode (.request 0x0500000000020000#64) = .error (.mustBeZero 0x0500000000020000#64) ∧
    decode (.request 0x0801000000000000#64) = .error (.mustBeZero 0x0801000000000000#64) ∧
    decode (.request 0x0900010000000000#64) = .error (.mustBeZero 0x0900010000000000#64) ∧
    decode (.request 0x0A00000000000001#64) = .error (.mustBeZero 0x0A00000000000001#64) :=
  ⟨rfl, rfl, rfl, rfl, rfl, rfl, rfl⟩

/-- 20_memory.md R86 and log 6: what is no bus command. -/
theorem test_decode_frames_refused :
    decode (.frame []) = .error .emptyFrame ∧ decode (.frame [0x41#8]) = .error (.unknownCommand 0x41#8) ∧
    decode (.frame [0x86#8]) = .error (.unknownCommand 0x86#8) ∧ decode (.frame [0x90#8]) = .error (.unknownCommand 0x90#8) ∧
    decode (.frame [0xD0#8]) = .error (.unknownCommand 0xD0#8) ∧ decode (.frame [0xBF#8]) = .error (.unknownCommand 0xBF#8) ∧
    decode (.frame [0x40#8, 0#8]) = .error (.strayData 0x40#8) := ⟨rfl, rfl, rfl, rfl, rfl, rfl, rfl⟩

/-- No two rows of the opcode table share a word. -/
theorem test_request_rows_apart : requestTable.Pairwise (fun r q => r.apart q = true) := by decide
theorem test_command_rows_apart : commandTable.Pairwise (fun r q => r.apart q = true) := by decide

/-! ### Pure functions -/

/-- 95_test_vectors.md section 2.2. -/
theorem test_addresses :
    ([0, 1, 2, 3, 4, 5, 6, 7, 8, 9, 255] : List Int).map (fun n => (gridAddr n, lampAddr n))
      = [(0xC0, 0xC1), (0xC0, 0xC1), (0xC2, 0xC3), (0xC4, 0xC5), (0xC6, 0xC7), (0xC8, 0xC9), (0xCA, 0xCB), (0xCC, 0xCD),
         (0xCE, 0xCF), (0xCE, 0xCF), (0xCE, 0xCF)] := by decide

/-- 95_test_vectors.md section 2.4, the bytes of SETGRID's rows under the default FONT. -/
theorem test_symbols :
    [segmentByte defaultFont 0 false, segmentByte defaultFont 8 true, segmentByte defaultFont 10 true,
     segmentByte defaultFont 15 false, segmentByte defaultFont 16 false, segmentByte defaultFont 17 true,
     segmentByte defaultFont 18 false, segmentByte defaultFont 255 true]
      = [0x3F, 0xFF, 0xF7, 0x71, 0x40, 0x80, 0x00, 0x80] := by decide

/-- 95_test_vectors.md section 2.5: 123456789 is cut after position 8; a clamped start; the most negative value. -/
theorem test_showNum_cut :
    showNumWrites defaultFont 123456789 0 1
      = [(0xC0, 0x06), (0xC2, 0x5B), (0xC4, 0x4F), (0xC6, 0x66), (0xC8, 0x6D), (0xCA, 0x7D), (0xCC, 0x07), (0xCE, 0x7F)] := by
  decide
theorem test_showNum_minus_point : showNumWrites defaultFont (-1) 1 1 = [(0xC0, 0xC0), (0xC2, 0x06)] := by decide
theorem test_showNum_late_start : showNumWrites defaultFont 42 1 7 = [(0xCC, 0xE6), (0xCE, 0x5B)] := by decide
theorem test_showNum_point_cut_off : showNumWrites defaultFont 123 3 7 = [(0xCC, 0x06), (0xCE, 0x5B)] := by decide
theorem test_showNum_start_clamped :
    showNumWrites defaultFont 5 0 0 = [(0xC0, 0x6D)] ∧ showNumWrites defaultFont 5 1 200 = [(0xCE, 0xED)] := by decide
theorem test_showNum_most_negative :
    showNumWrites defaultFont (signedOperand 0x80000000#32) 0 1
      = [(0xC0, 0x40), (0xC2, 0x5B), (0xC4, 0x06), (0xC6, 0x66), (0xC8, 0x07), (0xCA, 0x66), (0xCC, 0x7F), (0xCE, 0x4F)] := by
  decide

/-- 95_test_vectors.md section 2.6, under REF. -/
theorem test_gauge_mixed :
    (gaugeWrites {} 4 15 2 7 6).map Prod.snd = [0x5B, 0x5B, 0x53, 0x63, 0x42, 0x42, 0x02, 0x04] := by decide
theorem test_gauge_p3 :
    gaugeWrites {} 8 5 0 16 3
      = [(0xC0, 0x53), (0xC2, 0x53), (0xC4, 0x55), (0xC6, 0x11), (0xC8, 0x11), (0xCA, 0x11), (0xCC, 0x11), (0xCE, 0x11)] := by
  decide
theorem test_gauge_above_maximum :
    (gaugeWrites {} 255 255 255 255 255).map Prod.snd = List.replicate 8 0x5B := by decide

/-- 95_test_vectors.md section 2.7. -/
theorem test_scanDecode :
    [scanDecode ⟨0x01, 0x00, 0x00, 0x00⟩, scanDecode ⟨0x00, 0x01, 0x00, 0x00⟩, scanDecode ⟨0x00, 0x00, 0x00, 0x08⟩,
     scanDecode ⟨0x00, 0x10, 0x00, 0x00⟩, scanDecode ⟨0x11, 0x22, 0x44, 0x88⟩, scanDecode ⟨0x80, 0x80, 0x80, 0x80⟩,
     scanDecode ⟨0xAA, 0x55, 0xAA, 0x55⟩, scanDecode ⟨0xFF, 0xFF, 0xFF, 0xFF⟩]
      = [0x01, 0x00, 0x01, 0x08, 0x11, 0xF0, 0xAA, 0xFF] := by decide

/-- 95_test_vectors.md section 2.1. -/
theorem test_bit_order :
    txBits 0xC0#8 = [false, false, false, false, false, false, true, true] ∧
    txBits 0x8C#8 = [false, false, true, true, false, false, false, true] ∧
    rxByte [true, false, false, false, false, false, false, false] = 0x80#8 ∧
    rxByte [true, false, true, false, false, true, false, true] = 0xA5#8 := by decide

/-! ### One step -/

/-- 95_test_vectors.md L1-10. -/
theorem test_reset_from_power_on :
    (nextOf (exec .reset State.reset)).map (fun t => (t.lampMask, t.autoIncrement, t.init, t.busUnread))
      = some (some 0x00#8, some false, true,
          [.stbLow, .tx .lsbFirst 0x40#8, .stbHigh, .stbLow, .tx .lsbFirst 0xC0#8] ++
            List.replicate 16 (.tx .lsbFirst 0x00#8) ++ [.stbHigh, .stbLow, .tx .lsbFirst 0x44#8, .stbHigh]) := by decide

/-- 70_reset_and_hazards.md R331 and 20_memory.md R70 on a RESET after a SCAN: the level last set stays LOW; the level
after every event is UNKNOWN (log 10). -/
theorem test_reset_after_scan :
    (nextOf (exec .reset { ready with port := { ready.port with dio := .low, dioSet := .low } })).map
        (fun t => (t.port.dioSet, t.port.dio)) = some (.low, .unknown) := by decide

/-- 95_test_vectors.md section 2.3: brightness 0, and 255 clamped to 8. -/
theorem test_setBright_zero :
    (nextOf (exec (.setBright 0#8) ready)).map State.busUnread = some [.stbLow, .tx .lsbFirst 0x87#8, .stbHigh] := by decide
theorem test_setBright_clamped :
    (nextOf (exec (.setBright 255#8) ready)).map State.busUnread = some [.stbLow, .tx .lsbFirst 0x8F#8, .stbHigh] := by
  decide

/-- 95_test_vectors.md section 2.3: lampMask 0x0E, `setlamp 3, 0`; and `setlamp 255, 1` acts on lamp 8. -/
theorem test_setLamp_off :
    (nextOf (exec (.setLamp 3#8 false) ready)).map (fun t => (t.lampMask, t.busUnread))
      = some (some 0x0A#8, writeEvents 0xC5#8 0x00#8) := by decide
theorem test_setLamp_clamped :
    (nextOf (exec (.setLamp 255#8 true) ready)).map (fun t => (t.lampMask, t.busUnread))
      = some (some 0x8E#8, writeEvents 0xCF#8 0x01#8) := by decide

/-- 95_test_vectors.md L1-3 on the mirror 0x0E: lamp 4 is lit; lamp 0 is lamp 1, which is not. -/
theorem test_getLamp_lit :
    (nextOf (exec (.getLamp 4#8) ready)).map (fun t => (t.responses, t.busUnread)) = some ([1#32], []) := by decide
theorem test_getLamp_clamped :
    (nextOf (exec (.getLamp 0#8) ready)).map State.responses = some [0#32] := by decide

/-- 95_test_vectors.md section 2.4, `setgrid 9, 17, 1` and `setgrid 2, 255, 1`: the blank needs no FONT. -/
theorem test_setGrid_blank_point :
    (nextOf (exec (.setGrid 9#8 17#8 true) ready)).map State.busUnread = some (writeEvents 0xCE#8 0x80#8) := by rfl
theorem test_setGrid_undefined_code :
    (nextOf (exec (.setGrid 2#8 255#8 true) ready)).map State.busUnread = some (writeEvents 0xC2#8 0x80#8) := by rfl

/-- 95_test_vectors.md section 2.4, `cleargrid 77` and `clear`. -/
theorem test_clearGrid_clamped :
    (nextOf (exec (.clearGrid 77#8) ready)).map State.busUnread = some (writeEvents 0xCE#8 0x00#8) := by rfl
theorem test_clear_keeps_mirror :
    (nextOf (exec .clear ready)).map (fun t => (t.lampMask, t.busUnread.length)) = some (some 0x0E#8, 32) := by rfl

/-- 95_test_vectors.md section 2.5: `shownum 123, 3, 7` sends two writes. -/
theorem test_showNum_length : (nextOf (exec (.showNum 123#32 3#8 7#8) ready)).map (fun t => t.busUnread.length) = some 8 := by
  rfl

/-- 95_test_vectors.md L1-4, `gauge 0, 0, 0, 0, 0`: nothing is lit, whatever GAUGE_SEG is. -/
theorem test_gauge_zero :
    (nextOf (exec (.gauge 0#8 0#8 0#8 0#8 0#8) ready)).map (fun t => t.busUnread.take 4)
      = some (writeEvents 0xC0#8 0x00#8) := by rfl

/-- 95_test_vectors.md P4: the draws (0x00, 0x80, 0x00, 0x10) give the response 0x42 and leave the data line LOW. -/
theorem test_scan_response :
    (nextOf (exec .scan { ready with keyBytes := [0x00#8, 0x80#8, 0x00#8, 0x10#8] })).map
        (fun t => (t.responses, t.port, t.scanBuffer, t.keyBytes))
      = some ([0x42#32], { stb := .high, dir := .output, dio := .low, dioSet := .low }, none, []) := by decide
theorem test_scan_events :
    (nextOf (exec .scan { ready with keyBytes := [0x00#8, 0x80#8, 0x00#8, 0x10#8] })).map State.busUnread
      = some [.stbLow, .tx .lsbFirst 0x42#8, .dirIn, .rx .msbFirst 0x00#8, .rx .msbFirst 0x80#8, .rx .msbFirst 0x00#8,
          .rx .msbFirst 0x10#8, .dirOut, .dataLow, .stbHigh] := by decide

/-- 20_memory.md R82, R83, R85: the commands on the chip. -/
theorem test_autoIncOn : (nextOf (exec .autoIncOn ready)).map (fun t => t.obs.mode) = some .auto := by decide
theorem test_autoIncOff :
    (nextOf (exec .autoIncOff { ready with obs := Observer.allUnknown })).map (fun t => t.obs.mode) = some .fixed := by decide
theorem test_keyScan :
    (nextOf (exec .keyScan ready)).map (fun t => (t.obs.mode, t.obs.keys, t.obs.ram)) = some (.unknown, some true, chip.ram) := by
  decide
theorem test_displayOff : (nextOf (exec .displayOff ready)).map (fun t => t.obs.display) = some .off := by decide
theorem test_displayOn :
    (nextOf (exec (.displayOn 0#3) ready)).map (fun t => t.obs.display) = some (.level 1) ∧
    (nextOf (exec (.displayOn 7#3) ready)).map (fun t => t.obs.display) = some (.level 8) := by decide

/-- 20_memory.md R84: two data bytes in AUTO mode go to two registers, in FIXED mode to one. -/
theorem test_addrGrid_auto :
    (nextOf (exec (.addrGrid 7#3 [0x11#8, 0x22#8]) { ready with obs := { chip with mode := .auto } })).map
        (fun t => (Memory.read t.obs.ram 0xCE, Memory.read t.obs.ram 0xCF, t.obs.ptr))
      = some (some 0x11#8, some 0x22#8, some 16) := by decide
theorem test_addrLamp_fixed :
    (nextOf (exec (.addrLamp 1#3 [0x11#8, 0x22#8]) ready)).map
        (fun t => (Memory.read t.obs.ram 0xC3, Memory.read t.obs.ram 0xC4, Memory.read t.obs.ram 0xC0, t.obs.ptr))
      = some (some 0x22#8, none, some 0x3F#8, some 3) := by decide

/-- 92 D27, 93 I8: a data byte past 0xCF makes every field of the observer UNKNOWN, and bytes after it change nothing. -/
theorem test_addrLamp_past_end :
    (nextOf (exec (.addrLamp 7#3 [0x11#8, 0x22#8, 0x33#8]) { ready with obs := { chip with mode := .auto } })).map
        (fun t => t.obs) = some Observer.allUnknown := by decide

/-- 95_test_vectors.md section 2.8, the last rows: faults and their priority. -/
theorem test_fault_not_initialized :
    (nextOf (exec (.setBright 5#8) State.reset)).map State.fault = some (some (.notInitialized 0x0200000000000005#64)) := by
  decide
theorem test_fault_illegal_first :
    (nextOf (step { State.reset with requests := [0x0B00000000000000#64] })).map State.fault
      = some (some (.illegalRequest 0x0B00000000000000#64)) := by decide
theorem test_fault_stops_reset : faultOf (exec .reset faulted) = some (.illegalRequest 0#64) := by decide

/-- A word placed for the next step is what the next step runs: a request and a bus command. -/
theorem test_placed_request :
    (nextOf (step (State.reset.withFetchWord 64 0x0100000000000000))).map (fun t => (t.init, t.reqIndex, t.requests))
      = some (true, 1, []) := by decide
theorem test_placed_command :
    (nextOf (step (State.reset.withFetchWord 8 0x8C))).map (fun t => (t.obs.display, t.busUnread))
      = some (.level 5, []) := by decide
theorem test_placed_address :
    (nextOf (step (State.reset.withFetchWord 8 0xC5))).map (fun t => t.obs.ram) = some [(0xC5, 0x00#8)] := by decide

/-! ### The memory law on small data, and the free values' types -/

theorem test_reset_memory_wf : Memory.wf State.reset.obs.ram := Memory.wf_nil
theorem test_write_keeps_order :
    Memory.write [(0xC0, 0x01#8), (0xC4, 0x02#8)] 0xC2 0x03#8 = [(0xC0, 0x01#8), (0xC2, 0x03#8), (0xC4, 0x02#8)] := by decide
theorem test_write_replaces : Memory.write [(0xC0, 0x01#8)] 0xC0 0x00#8 = [(0xC0, 0x00#8)] := by decide

/-! ### Witnesses: for each statement with hypotheses, a state and operands that meet all of them

Named after the statement. A statement with several clauses has a witness for each, at its boundary values. -/

theorem witness_EncodeOfDecode : decode (.frame [0xCF#8, 0x01#8]) = .ok (.addrLamp 7#3 [0x01#8]) := rfl

theorem witness_RequestWordsAreTableWords :
    (∃ r ∈ requestTable, 0x03000000000001FF#64 &&& r.mask = r.pattern) ∧
    ¬ ∃ r ∈ requestTable, 0x0300000000000200#64 &&& r.mask = r.pattern := by decide

theorem witness_CommandBytesDecode :
    0 ≤ 8 ∧ 8 ≤ 8 ∧ 0 < 16 ∧ 15 < 16 ∧ decode (.frame [BitVec.ofNat 8 (0x87 + 0)]) = .ok .displayOff ∧
    decode (.frame [BitVec.ofNat 8 (0x87 + 8)]) = .ok (.displayOn 7#3) ∧
    decode (.frame (BitVec.ofNat 8 (0xC0 + 0) :: [])) = .ok (.addrGrid 0#3 []) ∧
    decode (.frame (BitVec.ofNat 8 (0xC0 + 15) :: [])) = .ok (.addrLamp 7#3 []) :=
  ⟨by decide, by decide, by decide, by decide, rfl, rfl, rfl, rfl⟩

theorem witness_StepRunsDecodedInstruction_frame :
    ∃ f, takeFrame none (displayFramePending ready).busUnread = some f ∧ decode (.frame f.bytes) = .ok (.displayOn 4#3) :=
  ⟨_, rfl, rfl⟩

theorem witness_StepRunsDecodedInstruction_request :
    takeFrame none ready.busUnread = none ∧ ready.fault = none ∧
    ({ ready with requests := [0x0700000000000000#64] } : State).requests = 0x0700000000000000#64 :: [] ∧
    decode (.request 0x0700000000000000#64) = .ok .clear := ⟨rfl, rfl, rfl, rfl⟩

theorem witness_IllegalWordRaisesIllegalRequest :
    takeFrame none State.reset.busUnread = none ∧ State.reset.fault = none ∧
    ({ State.reset with requests := [0x0C00000000000000#64] } : State).requests = 0x0C00000000000000#64 :: [] ∧
    ∀ r ∈ requestTable, 0x0C00000000000000#64 &&& r.mask ≠ r.pattern := ⟨rfl, rfl, rfl, by decide⟩

theorem witness_RequestBeforeResetRaisesNotInitialized :
    Instr.scan.isRequest = true ∧ Instr.scan ≠ .reset ∧ State.reset.fault = none ∧ State.reset.init = false := by decide

theorem witness_FaultStopsEveryRequest :
    faulted.fault = some (.illegalRequest 0#64) ∧ Instr.reset.isRequest = true ∧ takeFrame none faulted.busUnread = none := by
  decide

theorem witness_FaultIsSticky :
    (displayFramePending faulted).fault = some (.illegalRequest 0#64) ∧
    ∃ t, step (displayFramePending faulted) = .next t := ⟨rfl, _, rfl⟩

theorem witness_StepAdvancesRequestIndexByOne :
    (∃ t, step ready = .next t) ∧ (∃ t, step (displayFramePending ready) = .next t) ∧
    ∃ t, step { State.reset with requests := [0x0B00000000000000#64] } = .next t := ⟨⟨_, rfl⟩, ⟨_, rfl⟩, ⟨_, rfl⟩⟩

theorem witness_IdleStepChangesNothing :
    takeFrame none ready.busUnread = none ∧ ready.fault = none ∧ ready.requests = [] := by decide

theorem witness_UnknownFrameMakesObserverUnknown :
    ∃ f, takeFrame none (unknownFramePending ready).busUnread = some f ∧
      decode (.frame f.bytes) = .error (.unknownCommand 0x80#8) := ⟨_, rfl, rfl⟩

/-- `ready` accepts requests and no frame waits. These are all the hypotheses of SetBrightSendsDisplayCommand,
SetLampWritesMirrorAndRegister, GetLampAnswersMirrorBit, SetGridWritesSegmentByte, ClearGridWritesBlank,
GridWriteReachesChip, ClearBlanksEveryGrid, ShowNumWritesText, GaugeWritesEveryPosition, ScanReadsFourBytes,
EveryScanQuadrupleCanOccur and ScanLeavesChipModeUnknown. -/
theorem witness_ready : ready.Ready ∧ ready.fault = none ∧ ready.busUnread = [] := by decide

theorem witness_ResetInitializesBlockAndChip :
    State.reset.fault = none ∧ State.reset.busUnread = [] ∧ 0xC0 ≤ 0xC0 ∧ 0xC0 ≤ 0xCF ∧ 0xC0 ≤ 0xCF ∧ 0xCF ≤ 0xCF := by decide

theorem witness_GetLampAfterSetLamp :
    ready.Ready ∧ (∃ t, exec (.setLamp 3#8 true) ready = .next t) ∧ positionOf 3#8 = positionOf 3#8 ∧
    positionOf 4#8 ≠ positionOf 3#8 := ⟨by decide, ⟨_, rfl⟩, rfl, by decide⟩

/-- Both clauses of what the chip holds: a register SHOWNUM writes (`-42` from position 1) and one it does not. -/
theorem witness_ShowNumReachesChip :
    ready.Ready ∧ ready.busUnread = [] ∧
    0 < min (decimalText (-42#32).toInt).length (9 - positionOf 1#8) ∧
    2 < min (decimalText (-42#32).toInt).length (9 - positionOf 1#8) ∧
    ∀ j, j < min (decimalText (-42#32).toInt).length (9 - positionOf 1#8) → 0xC6 ≠ gridRegister (positionOf 1#8 + j) := by
  decide

theorem witness_GaugeReachesChip : ready.Ready ∧ ready.busUnread = [] ∧ 1 ≤ 1 ∧ 1 ≤ 8 ∧ 8 ≤ 8 := by decide

theorem witness_DisplayCommandsSetDisplay : 0 ≤ 8 ∧ 8 ≤ 8 ∧ (8 = 0) = False := by decide

/-- The two pointer clauses of R84: a pointer at the last register, and one past it. -/
theorem witness_AddressFrameWritesRegisters :
    (nextOf (exec (.addrLamp 7#3 []) ready)).map (fun t => t.obs.ptr) = some (some 15) ∧ 15 < 16 ∧
    (nextOf (exec (.addrLamp 7#3 [0x11#8]) { ready with obs := { chip with mode := .auto } })).map (fun t => t.obs.ptr)
      = some (some 16) ∧ 16 ≤ 16 ∧
    (nextOf (exec (.addrLamp 7#3 [0x11#8]) { ready with obs := { chip with mode := .unknown } })).map (fun t => t.obs.ptr)
      = some none := by decide

theorem witness_BulkFrameNeedsAutoIncrement :
    ready.obs.mode = .fixed ∧ ({ ready with obs := { chip with mode := .auto } } : State).obs.mode = .auto ∧
    0xC0 ≤ 0xCF ∧ 0xCF ≤ 0xCF := by decide

theorem witness_AddressCalculatorCoversRegisters :
    0xC0 ≤ 0xC0 ∧ 0xCF ≤ 0xCF ∧ (1 : Int) ≤ 1 ∧ (7 : Int) ≤ 7 ∧ (gridAddr 1).toNat = 0xC0 ∧ (lampAddr 8).toNat = 0xCF := by
  decide

theorem witness_SymbolLookupByFont : 17 ≤ 17 ∧ 16 < 17 ∧ 6 < 7 := by decide

theorem witness_DecimalTextEquations : 9 < 10 ∧ ¬ 10 < 10 ∧ digits 10 = [1, 0] ∧ decimalText (-1) = [16, 1] := by decide

theorem witness_DecimalTextLength :
    (decimalText (BitVec.toInt 0xC4653600#32)).length = 11 ∧ BitVec.toInt 0xC4653600#32 = -1000000000 ∧
    (decimalText (BitVec.toInt 0xC4653601#32)).length = 10 := by decide

theorem witness_GaugeByteLightsItsBits :
    1 ≤ 1 ∧ 8 ≤ 8 ∧ (gaugeByte {} 1 1 0 0 0 0).getLsbD 0 = true ∧ (gaugeByte {} 8 0 15 0 0 0).getLsbD 2 = true := by decide

theorem witness_SixteenStepGaugeCountsHalfSteps :
    (0x02#8 : Byte) ≠ 0#8 ∧ (0x04#8 : Byte) ≠ 0#8 ∧ (0x02#8 : Byte) &&& 0x04#8 = 0#8 ∧ 1 ≤ 1 ∧ 8 ≤ 8 := by decide

theorem witness_GaugeClampingUnobservable : 1 ≤ 1 ∧ 1 ≤ 8 ∧ 8 ≤ 8 := by decide

theorem witness_BitOrderOutAndIn :
    0 < 8 ∧ 7 < 8 ∧ [true, false, true, false, false, true, false, true].length = 8 := by decide

/-- A state that meets the invariant and takes a step: `resetDone` is the state right after a first RESET, whose three
frames wait for the observer. -/
def resetDone : State := resetBody State.reset

theorem witness_StepKeepsInv : resetDone.Inv ∧ ∃ t, step resetDone = .next t :=
  ⟨⟨rfl, rfl, rfl, by decide, by decide, Memory.wf_nil, rfl, rfl, rfl⟩, _, rfl⟩

theorem witness_ObserverReadsWhatARequestSent :
    Instr.clear.isRequest = true ∧ ready.busUnread = [] ∧ ∃ t, exec .clear ready = .next t := ⟨rfl, rfl, _, rfl⟩

theorem witness_RequestsDoNotReadTheChip : Instr.scan.isRequest = true ∧ ready.obs ≠ Observer.allUnknown := by decide

theorem witness_RequestsSendWellFormedFrames :
    Instr.reset.isRequest = true ∧ ∃ t, exec .reset State.reset = .next t := ⟨rfl, _, rfl⟩

theorem witness_EventCountOfEveryRequest : ready.Ready ∧ ∃ t, exec (.showNum 5#32 1#8 200#8) ready = .next t :=
  ⟨by decide, _, rfl⟩

theorem witness_DataLevelAfterEveryRequest :
    ready.Ready ∧ (∃ t, exec .scan ready = .next t) ∧ (∃ t, exec (.getLamp 1#8) ready = .next t) ∧
    ∃ t, exec .reset ready = .next t := ⟨by decide, ⟨_, rfl⟩, ⟨_, rfl⟩, ⟨_, rfl⟩⟩

theorem witness_TraceIsAppendOnly : ∃ t, step (displayFramePending ready) = .next t := ⟨_, rfl⟩

theorem witness_RegisterWriters :
    (∃ t, exec .reset ready = .next t) ∧ (∃ t, exec (.setLamp 8#8 true) ready = .next t) ∧ 6 ≠ positionOf 8#8 - 1 :=
  ⟨⟨_, rfl⟩, ⟨_, rfl⟩, by decide⟩

theorem witness_OnlyGetLampAndScanRespond :
    (∃ t, exec (.getLamp 1#8) ready = .next t) ∧ (∃ t, exec .scan ready = .next t) ∧ ∃ t, exec .scan State.reset = .next t :=
  ⟨⟨_, rfl⟩, ⟨_, rfl⟩, ⟨_, rfl⟩⟩

theorem witness_RegisterWriteIsIdempotent :
    ∃ t u, exec (.addrGrid 0#3 [0x5B#8]) ready = .next t ∧ exec (.addrGrid 0#3 [0x5B#8]) t = .next u := ⟨_, _, rfl, rfl⟩

end Sys2Proof.Tests
end

/-! PROOFS. The trace of 10_state.md R43: which operations leave it as it is, and that no step takes an event from it.
Reading a frame moves events from the unread to the read part of the trace (log 4), so the trace itself stays. -/

namespace Sys2Proof.Machine

open Sys2Proof

/-! ### The operations that leave the trace as it is -/

@[simp] theorem State.trace_observe (s : State) (f : Observer → Observer) : (s.observe f).trace = s.trace := rfl

@[simp] theorem State.trace_issue (s : State) (ws : List RequestWord) : (s.issue ws).trace = s.trace := rfl

@[simp] theorem State.trace_raise (s : State) (f : Fault) : (s.raise f).trace = s.trace := rfl

theorem State.trace_readFrame {s : State} {f : FrameRead} (h : takeFrame none s.busUnread = some f) :
    (s.readFrame f).trace = s.trace := by
  obtain ⟨hsplit, -⟩ := takeFrame_spec h
  simp [State.trace, hsplit]

/-! ### Instructions and steps -/

/-- A request appends the events it emits, and a bus command appends none. -/
theorem exec_trace_prefix {i : Instr} {s t : State} (h : exec i s = .next t) : s.trace <+: t.trace := by
  cases hi : i.isRequest with
  | true =>
    obtain ⟨hread, -, -, -, es, hunread, -⟩ := exec_request_emits hi h
    exact ⟨es, by simp [State.trace, hread, hunread]⟩
  | false =>
    obtain ⟨f, hf⟩ := exec_command_observes s hi
    obtain rfl : s.observe f = t := Host.Outcome.next.inj (hf.symm.trans h)
    simp

theorem step_trace_prefix {s t : State} (h : step s = .next t) : s.trace <+: t.trace := by
  obtain ⟨f, i, hf, -, hx⟩ | ⟨f, -, hf, -, rfl⟩ | ⟨-, -, -, rfl⟩ | ⟨-, ws, i, -, -, -, -, hx⟩ |
    ⟨w, ws, -, -, -, -, -, rfl⟩ := step_cases h
  · -- a frame that is a bus command
    rw [← State.trace_readFrame hf]
    exact exec_trace_prefix hx
  · -- a frame that is none
    simp [State.trace_readFrame hf]
  · -- the block is idle
    exact List.prefix_rfl
  · -- a request
    rw [← State.trace_issue s ws]
    exact exec_trace_prefix hx
  · -- a word that is no request
    simp

/-- Settles O55: the power-on trace is empty, and every case of `step_cases` leaves the trace or appends to it. -/
theorem traceIsAppendOnly : Obligations.TraceIsAppendOnly :=
  ⟨rfl, fun _ _ => step_trace_prefix⟩

end Sys2Proof.Machine

/-! PROOFS. The mode and display commands of 20_memory.md R82 and R83: how their frames decode, what they do to the
observer, and that nothing else changes. -/

namespace Sys2Proof.Machine

open Sys2Proof

/-! ### The decoder on the display command bytes -/

theorem decode_displayOff : decode (.frame [cmdDisplay 0]) = .ok .displayOff := rfl

theorem decode_displayOn (k : BitVec 3) : decode (.frame [cmdDisplay (k.toNat + 1)]) = .ok (.displayOn k) := by
  revert k
  decide

/-! ### The meanings of the commands -/

theorem exec_autoIncOn (s : State) : exec .autoIncOn s = .next (s.observe (Observer.modeFrame .auto)) := rfl

theorem exec_autoIncOff (s : State) : exec .autoIncOff s = .next (s.observe (Observer.modeFrame .fixed)) := rfl

theorem exec_displayOff (s : State) : exec .displayOff s = .next (s.observe (Observer.displayFrame .off)) := rfl

theorem exec_displayOn (k : BitVec 3) (s : State) :
    exec (.displayOn k) s = .next (s.observe (Observer.displayFrame (.level (k.toNat + 1)))) := rfl

/-! ### What a frame does to the observer, and what it keeps -/

/-- Whatever a frame does to the observer, every other field is kept (20_memory.md R81). -/
theorem State.observe_restore (s : State) (f : Observer → Observer) : { s.observe f with obs := s.obs } = s := rfl

/-- R82: only the mode changes, beside the mark that tells a key-scan frame. -/
theorem State.observe_modeFrame (s : State) (m : AddressMode) :
    let t := s.observe (Observer.modeFrame m)
    t.obs.mode = m ∧ t.obs.ptr = s.obs.ptr ∧ t.obs.ram = s.obs.ram ∧ t.obs.display = s.obs.display ∧
      { t with obs := s.obs } = s :=
  ⟨rfl, rfl, rfl, rfl, s.observe_restore _⟩

/-- R83: only the display changes, beside the mark that tells a key-scan frame. -/
theorem State.observe_displayFrame (s : State) (d : Display) :
    let t := s.observe (Observer.displayFrame d)
    t.obs.display = d ∧ t.obs.mode = s.obs.mode ∧ t.obs.ptr = s.obs.ptr ∧ t.obs.ram = s.obs.ram ∧
      { t with obs := s.obs } = s :=
  ⟨rfl, rfl, rfl, rfl, s.observe_restore _⟩

/-! ### The obligations -/

/-- Settles O32: l = 0 is the row DISPLAY_OFF; l = k + 1 is the row DISPLAY_ON, whose 3-bit field holds k because
l ≤ 8. -/
theorem displayCommandsSetDisplay : Obligations.DisplayCommandsSetDisplay := by
  intro s l hl
  cases l with
  | zero => exact ⟨_, _, decode_displayOff, exec_displayOff s, s.observe_displayFrame .off⟩
  | succ k =>
    have field : (BitVec.ofNat 3 k).toNat = k := by
      rw [BitVec.toNat_ofNat]
      omega
    have decoded := decode_displayOn (BitVec.ofNat 3 k)
    have executed := exec_displayOn (BitVec.ofNat 3 k) s
    rw [field] at decoded executed
    exact ⟨_, _, decoded, executed, s.observe_displayFrame (.level (k + 1))⟩

/-- Settles O31: each command is an address-mode frame with the mode it names. -/
theorem modeCommandsSetMode : Obligations.ModeCommandsSetMode :=
  ⟨rfl, rfl, fun s => ⟨⟨_, exec_autoIncOn s, s.observe_modeFrame .auto⟩,
    ⟨_, exec_autoIncOff s, s.observe_modeFrame .fixed⟩⟩⟩

end Sys2Proof.Machine

/-! PROOFS. The address calculator of 41_lookup.md R171 to R173 on every integer: the clamped position, its range, and
the two register addresses, which fit a byte because the position is in 1..8. -/

namespace Sys2Proof.Machine

open Sys2Proof

/-! ### The clamped position -/

/-- The clamp of R170 between 1 and 8 is positive, so taking it as a natural number loses nothing. -/
theorem clampPos_cast (n : Int) : (clampPos n : Int) = if n < 1 then 1 else if 8 < n then 8 else n := by
  simp only [clampPos, clamp]
  split_ifs <;> omega

theorem clampPos_range (n : Int) : 1 ≤ clampPos n ∧ clampPos n ≤ 8 := by
  have cast := clampPos_cast n
  split_ifs at cast <;> omega

/-! ### The addresses as numbers -/

theorem gridAddr_toNat (n : Int) : (gridAddr n).toNat = 0xC0 + (clampPos n - 1) * 2 := by
  obtain ⟨-, le_eight⟩ := clampPos_range n
  simp only [gridAddr, regBase, BitVec.toNat_ofNat]
  omega

theorem lampAddr_toNat (n : Int) : (lampAddr n).toNat = 0xC0 + 1 + (clampPos n - 1) * 2 := by
  obtain ⟨-, le_eight⟩ := clampPos_range n
  simp only [lampAddr, regBase, BitVec.toNat_ofNat]
  omega

/-! ### The obligation -/

/-- Settles O37: p is the clamped position itself, and neither address wraps around. -/
theorem addressCalculatorFormula : Obligations.AddressCalculatorFormula :=
  fun n => ⟨clampPos n, clampPos_cast n, rfl, gridAddr_toNat n, lampAddr_toNat n⟩

end Sys2Proof.Machine

/-! PROOFS. A step that reads a whole frame does to the observer what the frame's bytes say: the decoder's way of reading
a frame agrees with `readBytes`, which goes by the numeric value of the first byte (20_memory.md R81 to R86). So what
the chip holds after the frames of a request is found from their bytes alone, without the decoder. -/

namespace Sys2Proof.Machine

open Sys2Proof

/-! ### The command byte as a number -/

theorem isAddress_iff (c : Byte) : isAddress c = true ↔ 0xC0 ≤ c.toNat ∧ c.toNat ≤ 0xCF := by
  revert c
  decide

/-- Bit 0 of an address byte tells lamp from grid, bits 3:1 the position (30_encoding.md R112). -/
theorem entry_of_isAddress {c : Byte} (h : isAddress c = true) :
    c.toNat - 0xC0 = 2 * (c.extractLsb' 1 3).toNat + (c.getLsbD 0).toNat := by
  revert c
  decide

/-- The bytes 0x88..0x8F and their level (30_encoding.md R111). -/
theorem displayOn_field (c : Byte) :
    (c.extractLsb' 3 5 = 0b10001#5 ↔ 0x88 ≤ c.toNat ∧ c.toNat ≤ 0x8F) ∧
      (c.extractLsb' 3 5 = 0b10001#5 → c.toNat - 0x87 = (c.extractLsb' 0 3).toNat + 1) := by
  revert c
  decide

/-! ### What `readBytes` does with each shape of frame -/

theorem readBytes_address {c : Byte} (h : isAddress c = true) (data : List Byte) :
    readBytes (c :: data) = Observer.writeFrame (c.toNat - 0xC0) data := by
  funext o
  simp [readBytes, (isAddress_iff c).1 h]

theorem readBytes_displayOn {c : Byte} (h : c.extractLsb' 3 5 = 0b10001#5) :
    readBytes [c] = Observer.displayFrame (.level ((c.extractLsb' 0 3).toNat + 1)) := by
  obtain ⟨range, level⟩ := displayOn_field c
  obtain ⟨low, high⟩ := range.1 h
  funext o
  rw [← level h]
  simp (disch := omega) [readBytes, if_neg, low, high]

/-- A frame whose first byte is no command byte, or has data where none may follow. -/
theorem readBytes_unknown {c : Byte} {data : List Byte} (haddr : ¬ isAddress c = true)
    (h : data ≠ [] ∨ ∃ r, decodeCommand c = .error r) : readBytes (c :: data) = fun _ => Observer.allUnknown := by
  funext o
  rw [isAddress_iff] at haddr
  simp only [readBytes, if_neg haddr]
  by_cases hdata : data = []
  · obtain ⟨r, hr⟩ := h.resolve_left (not_not.2 hdata)
    unfold decodeCommand at hr
    split_ifs at hr with h40 h42 h44 h87 hlevel
    rw [(displayOn_field c).1] at hlevel
    have differs {k : Byte} (hk : c ≠ k) : c.toNat ≠ k.toNat := mt BitVec.eq_of_toNat_eq hk
    rw [if_neg (not_not.2 hdata), if_neg (show c.toNat ≠ 0x40 from differs h40),
      if_neg (show c.toNat ≠ 0x44 from differs h44), if_neg (show c.toNat ≠ 0x42 from differs h42),
      if_neg (show c.toNat ≠ 0x87 from differs h87), if_neg hlevel]
  · rw [if_pos hdata]

/-! ### Decoding agrees with it -/

theorem exec_decodeCommand {c : Byte} {i : Instr} (h : decodeCommand c = .ok i) (s : State) :
    exec i s = .next (s.observe (readBytes [c])) := by
  unfold decodeCommand at h
  split_ifs at h with h40 h42 h44 h87 hlevel
  · cases h; subst h40; rfl
  · cases h; subst h42; rfl
  · cases h; subst h44; rfl
  · cases h; subst h87; rfl
  · cases h
    rw [readBytes_displayOn hlevel]
    rfl

theorem exec_decodeFrame {bytes : List Byte} {i : Instr} (h : decode (.frame bytes) = .ok i) (s : State) :
    exec i s = .next (s.observe (readBytes bytes)) := by
  cases bytes with
  | nil => cases h
  | cons c data =>
    simp only [decode, decodeFrame] at h
    split_ifs at h with haddr hbit hdata
    · -- a lamp register
      cases h
      rw [readBytes_address haddr, entry_of_isAddress haddr, hbit]
      rfl
    · -- a grid register
      cases h
      rw [readBytes_address haddr, entry_of_isAddress haddr, Bool.eq_false_of_not_eq_true hbit]
      rfl
    · -- a command without data
      rw [List.isEmpty_iff.1 hdata]
      exact exec_decodeCommand h s

theorem readBytes_of_decode_error {bytes : List Byte} {r : Reject} (h : decode (.frame bytes) = .error r) :
    readBytes bytes = fun _ => Observer.allUnknown := by
  cases bytes with
  | nil => rfl
  | cons c data =>
    simp only [decode, decodeFrame] at h
    split_ifs at h with haddr hdata
    · exact readBytes_unknown haddr (.inr ⟨r, h⟩)
    · exact readBytes_unknown haddr (.inl (fun hnil => hdata (List.isEmpty_iff.2 hnil)))

/-! ### Steps that read frames -/

/-- R81: the observer reads the first whole frame that waits, whatever its bytes are. -/
theorem step_reads_frame {s : State} {f : FrameRead} (hf : takeFrame none s.busUnread = some f) :
    step s = .next ((s.readFrame f).observe (readBytes f.bytes)) := by
  cases hd : decode (.frame f.bytes) with
  | ok i => rw [step_frame hf hd, exec_decodeFrame hd]
  | error r => simp [step, fetch, hf, fetchFrame, hd, readBytes_of_decode_error hd]

theorem run_succ {s t : State} (k : Nat) (h : step s = .next t) :
    Host.Core.run Sys2Proof.core (k + 1) s = Host.Core.run Sys2Proof.core k t := by
  have hstep : Sys2Proof.core.step s = .next t := h
  simp only [Host.Core.run, hstep]

/-- The observer after the frames with these bytes, read in order (20_memory.md R81). -/
def readFrames (frames : List (List Byte)) (o : Observer) : Observer :=
  frames.foldl (fun o bytes => readBytes bytes o) o

/-- As many steps as there are frames waiting read them all, and nothing else happens. -/
theorem run_reads_frames (frames : List (List Byte)) {s : State} (h : s.busUnread = frames.flatMap frameEvents) :
    Host.Core.run Sys2Proof.core frames.length s
      = .next { s with busRead := s.trace, busUnread := [], obs := readFrames frames s.obs } := by
  induction frames generalizing s with
  | nil =>
    have unread : s.busUnread = [] := h
    have readAll : s.trace = s.busRead := by simp [State.trace, unread]
    rw [readAll, ← unread]
    rfl
  | cons bytes frames ih =>
    rw [List.flatMap_cons] at h
    have first := takeFrame_frameEvents bytes (frames.flatMap frameEvents)
    rw [← h] at first
    rw [List.length_cons, run_succ _ (step_reads_frame first), ih rfl]
    simp [State.trace, State.readFrame, State.observe, readFrames, h]

/-- What the observer is after it has read the frames a request has just sent. -/
theorem run_reads_sent (frames : List (List Byte)) {s t : State} (hunread : s.busUnread = [])
    (hsent : t.busUnread = s.busUnread ++ frames.flatMap frameEvents) :
    ∃ u : State, Host.Core.run Sys2Proof.core frames.length t = .next u ∧ u.busUnread = [] ∧
      u.obs = readFrames frames t.obs := by
  rw [hunread, List.nil_append] at hsent
  exact ⟨_, run_reads_frames frames hsent, rfl, rfl⟩

end Sys2Proof.Machine

/-! PROOFS. What the chip's registers hold after write frames: one byte to one register in any mode, and the bytes of a
bulk frame under AUTO (20_memory.md R84, 40_framer.md R145). -/

namespace Sys2Proof.Machine

open Sys2Proof

/-- The frame of one register write writes that register, whatever the mode. -/
theorem readBytes_registerWrite {addr : Nat} (h : isRegister addr = true) (d : Byte) (o : Observer) :
    readBytes [BitVec.ofNat 8 addr, d] o
      = { o with ram := Memory.write o.ram addr d, ptr := o.mode.pointerAfter (addr - regBase), keys := some false } := by
  obtain ⟨low, high⟩ : 0xC0 ≤ addr ∧ addr < 0xC0 + 16 := of_decide_eq_true h
  have value : (BitVec.ofNat 8 addr).toNat = addr := by
    rw [BitVec.toNat_ofNat]
    omega
  have address : isAddress (BitVec.ofNat 8 addr) = true := by
    rw [isAddress_iff, value]
    omega
  have entry : addr - regBase < regCount := by
    simp only [regBase, regCount]
    omega
  have register : regBase + (addr - regBase) = addr := by
    simp only [regBase]
    omega
  rw [readBytes_address address, value]
  exact (Observer.writeFrame_one o d entry).trans (by rw [register])

/-- Under AUTO the data bytes go to consecutive registers, as long as these last. -/
theorem Observer.foldl_writeData_auto (data : List Byte) {o : Observer} {p : Nat} (hmode : o.mode = .auto)
    (hptr : o.ptr = some p) (hfit : p + data.length ≤ regCount) :
    (data.foldl Observer.writeData o).display = o.display ∧
      ∀ addr, Memory.read (data.foldl Observer.writeData o).ram addr
        = if regBase + p ≤ addr ∧ addr < regBase + p + data.length then data[addr - (regBase + p)]?
          else Memory.read o.ram addr := by
  induction data generalizing o p with
  | nil =>
    refine ⟨rfl, fun addr => ?_⟩
    rw [if_neg (by simp)]
    rfl
  | cons d data ih =>
    rw [List.length_cons] at hfit ⊢
    have written := Observer.writeData_inside d hptr (by omega)
    rw [hmode] at written
    obtain ⟨display, ram⟩ := ih (o := o.writeData d) (p := p + 1) (by rw [written]) (by rw [written]; rfl) (by omega)
    rw [List.foldl_cons]
    refine ⟨display.trans (by rw [written]), fun addr => ?_⟩
    rw [ram, written]
    rcases Nat.lt_trichotomy addr (regBase + p) with below | rfl | above
    · rw [if_neg (by omega), if_neg (by omega), Memory.read_write_other _ _ (by omega)]
    · rw [if_neg (by omega), if_pos (by omega), Memory.read_write_same, Nat.sub_self]
      rfl
    · have index : addr - (regBase + p) = addr - (regBase + (p + 1)) + 1 := by omega
      rw [Memory.read_write_other _ _ (by omega), index, List.getElem?_cons_succ]
      exact if_congr (by omega) rfl rfl

@[simp] theorem Observer.modeFrame_mode (m : AddressMode) (o : Observer) : (o.modeFrame m).mode = m := rfl

@[simp] theorem Observer.modeFrame_display (m : AddressMode) (o : Observer) :
    (o.modeFrame m).display = o.display := rfl

@[simp] theorem Observer.modeFrame_ram (m : AddressMode) (o : Observer) : (o.modeFrame m).ram = o.ram := rfl

/-- A write frame under AUTO, from register entry a on. -/
theorem Observer.writeFrame_auto (data : List Byte) {o : Observer} (a : Nat) (hmode : o.mode = .auto)
    (hfit : a + data.length ≤ regCount) :
    (o.writeFrame a data).display = o.display ∧
      ∀ addr, Memory.read (o.writeFrame a data).ram addr
        = if regBase + a ≤ addr ∧ addr < regBase + a + data.length then data[addr - (regBase + a)]?
          else Memory.read o.ram addr :=
  Observer.foldl_writeData_auto data (o := { o with ptr := some a, keys := some false }) hmode rfl hfit

end Sys2Proof.Machine

/-! PROOFS. The device operations RESET, SETBRIGHT, SETLAMP and GETLAMP of 42_device_ops.md. For each: the state its
pseudocode leaves, the frames it sends, and what the chip holds once the observer has read them. -/

namespace Sys2Proof.Machine

open Sys2Proof

/-! ### Sending -/

theorem State.emit_frameEvents (s : State) {bytes : List Byte} (h : bytes ≠ []) :
    s.emit (frameEvents bytes) = s.afterSending (frameEvents bytes) := by
  simp [State.emit, State.afterSending, Port.foldl_frameEvents, h]

theorem State.busUnread_afterSending_frame (s : State) (bytes : List Byte) :
    (s.afterSending (frameEvents bytes)).busUnread = s.busUnread ++ [bytes].flatMap frameEvents := by
  simp [State.afterSending]

/-! ### RESET -/

/-- The frames of RESET (42_device_ops.md R200). -/
def resetFrames : List (List Byte) :=
  [[cmdAutoIncOn], BitVec.ofNat 8 regBase :: bulkZeros, [cmdAutoIncOff]]

theorem resetBody_eq (s : State) :
    resetBody s = { s.afterSending (resetFrames.flatMap frameEvents) with
      lampMask := some 0x00#8, autoIncrement := some false, init := true } := by
  simp [resetBody, resetFrames, State.sendCommand, State.sendBulk, State.emit_frameEvents, State.afterSending,
    State.setAutoIncrement, State.setLampMask, State.setInit]

theorem readFrames_resetFrames (o : Observer) :
    readFrames resetFrames o = ((o.modeFrame .auto).writeFrame 0 bulkZeros).modeFrame .fixed := by
  have bulk := readBytes_address (c := BitVec.ofNat 8 regBase) (by decide) bulkZeros
  simp only [readFrames, resetFrames, List.foldl_cons, List.foldl_nil, bulk]
  rfl

/-- The first frame of RESET makes the mode AUTO, so the bulk frame reaches every register; the last makes it FIXED. -/
theorem chip_after_resetFrames (o : Observer) :
    (readFrames resetFrames o).mode = .fixed ∧ (readFrames resetFrames o).display = o.display ∧
      ∀ addr, 0xC0 ≤ addr ∧ addr ≤ 0xCF → Memory.read (readFrames resetFrames o).ram addr = some 0x00#8 := by
  have length : bulkZeros.length = 16 := List.length_replicate
  obtain ⟨display, ram⟩ := Observer.writeFrame_auto bulkZeros (o := o.modeFrame .auto) 0 rfl (by rw [length]; decide)
  simp only [readFrames_resetFrames, Observer.modeFrame_mode, Observer.modeFrame_display, Observer.modeFrame_ram,
    display, ram, true_and]
  intro addr ⟨low, high⟩
  rw [length, regBase, if_pos (by omega), bulkZeros, List.getElem?_replicate_of_lt (by omega)]

/-- The 25 events as R200 lists them. -/
theorem resetFrames_events :
    resetFrames.flatMap frameEvents
      = [.stbLow, .tx .lsbFirst 0x40#8, .stbHigh, .stbLow, .tx .lsbFirst 0xC0#8]
          ++ List.replicate 16 (.tx .lsbFirst 0x00#8)
          ++ [.stbHigh, .stbLow, .tx .lsbFirst 0x44#8, .stbHigh] := by
  decide

/-- Settles O15: `resetBody_eq` gives the state, with `dio` UNKNOWN, and the chip then reads the three frames. -/
theorem resetInitializesBlockAndChip : Obligations.ResetInitializesBlockAndChip := by
  intro s hfault
  refine ⟨resetBody s, .unknown, acceptReset_running hfault, ?_, fun hunread => ?_⟩
  · rw [resetBody_eq, resetFrames_events]
    rfl
  · have sent : (resetBody s).busUnread = s.busUnread ++ resetFrames.flatMap frameEvents := by
      rw [resetBody_eq]
      rfl
    obtain ⟨u, run, unread, obs⟩ := run_reads_sent resetFrames hunread sent
    exact ⟨u, run, unread, obs ▸ chip_after_resetFrames s.obs⟩

/-! ### SETBRIGHT -/

theorem setBrightBody_eq (level : Byte) (s : State) :
    setBrightBody level s = s.afterSending (frameEvents [BitVec.ofNat 8 (0x87 + min level.toNat 8)]) := by
  rw [setBrightBody, clampBright_operand]
  exact s.emit_frameEvents (List.cons_ne_nil _ _)

/-- R83 by the numeric byte: 0x87 is OFF, 0x87 + l the level l. -/
theorem readBytes_display {l : Nat} (hl : l ≤ 8) :
    readBytes [BitVec.ofNat 8 (0x87 + l)] = Observer.displayFrame (if l = 0 then .off else .level l) := by
  have value : (BitVec.ofNat 8 (0x87 + l)).toNat = 0x87 + l := by
    rw [BitVec.toNat_ofNat]
    omega
  funext o
  rcases Nat.eq_zero_or_pos l with rfl | hpos
  · rfl
  · have level : 0x88 ≤ 0x87 + l ∧ 0x87 + l ≤ 0x8F := by omega
    simp (disch := omega) only [readBytes, value, if_neg, if_pos level, ne_eq, not_true_eq_false, if_false,
      Nat.add_sub_cancel_left]

/-- Settles O16: the chip reads the one frame, whose byte is 0x87 + l with l = 0 exactly for level 0. -/
theorem setBrightSendsDisplayCommand : Obligations.SetBrightSendsDisplayCommand := by
  intro s level hready
  refine ⟨_, accept_ready hready, setBrightBody_eq level s, fun hunread => ?_⟩
  have off : min level.toNat 8 = 0 ↔ level = 0#8 := by
    rw [← BitVec.toNat_inj]
    simp
  have sent : (setBrightBody level s).busUnread
      = s.busUnread ++ [[BitVec.ofNat 8 (0x87 + min level.toNat 8)]].flatMap frameEvents := by
    rw [setBrightBody_eq, State.busUnread_afterSending_frame]
  obtain ⟨u, run, unread, obs⟩ := run_reads_sent _ hunread sent
  replace obs := obs.trans (congrFun (readBytes_display (Nat.min_le_right level.toNat 8)) s.obs)
  simp only [off] at obs
  exact ⟨u, run, unread, obs ▸ rfl, obs ▸ rfl⟩

/-! ### SETLAMP and GETLAMP -/

theorem one_shiftLeft_bit (i : Nat) {j : Nat} (hj : j < 8) : (1#8 <<< i).getLsbD j = decide (j = i) := by
  rw [← BitVec.twoPow_eq, BitVec.getLsbD_twoPow, Bool.eq_iff_iff]
  simp only [Bool.and_eq_true, decide_eq_true_eq]
  omega

/-- R210: one bit of the mirror is set, the others are kept. -/
theorem withLampBit_bit (mask : Byte) (i : Nat) (on : Bool) {j : Nat} (hj : j < 8) :
    (withLampBit mask i on).getLsbD j = if j = i then on else mask.getLsbD j := by
  have bit := one_shiftLeft_bit i hj
  cases on with
  | false =>
    rw [withLampBit, if_neg Bool.false_ne_true, BitVec.getLsbD_and, BitVec.getLsbD_not, bit]
    by_cases h : j = i <;> simp [h, hj]
  | true =>
    rw [withLampBit, if_pos rfl, BitVec.getLsbD_or, bit]
    by_cases h : j = i <;> simp [h]

theorem lampRegister_isRegister (b : Byte) : isRegister (lampRegister (positionOf b)) = true := by
  obtain ⟨low, high⟩ := positionOf_range b
  refine decide_eq_true ?_
  simp only [lampRegister, regBase, regCount]
  omega

theorem setLampBody_eq (num : Byte) (on : Bool) (s : State) :
    setLampBody num on s
      = { s.afterSending (writeEvents (BitVec.ofNat 8 (lampRegister (positionOf num))) (lampData on)) with
          lampMask := some (withLampBit s.lampMirror (positionOf num - 1) on) } := by
  rw [setLampBody, clampPos_operand, lampAddr_operand, State.sendWrite, State.emit_frameEvents _ (List.cons_ne_nil _ _)]
  rfl

/-- Settles O17: the frame writes the lamp register, so `Memory.read_write` gives every register afterwards. -/
theorem setLampWritesMirrorAndRegister : Obligations.SetLampWritesMirrorAndRegister := by
  intro s num on hready
  refine ⟨_, _, accept_ready hready, fun i => withLampBit_bit _ _ on, setLampBody_eq num on s, fun hunread => ?_⟩
  have sent : (setLampBody num on s).busUnread
      = s.busUnread ++ [[BitVec.ofNat 8 (lampRegister (positionOf num)), lampData on]].flatMap frameEvents := by
    rw [setLampBody_eq]
    exact s.busUnread_afterSending_frame [_, _]
  obtain ⟨u, run, unread, obs⟩ := run_reads_sent _ hunread sent
  replace obs := obs.trans (readBytes_registerWrite (lampRegister_isRegister num) (lampData on) s.obs)
  refine ⟨u, run, unread, obs ▸ rfl, fun addr => ?_⟩
  rw [obs, Memory.read_write]
  exact if_congr eq_comm rfl rfl

/-- Settles O18: an accepted GETLAMP is one response, of the bit that the clamped operand names. -/
theorem getLampAnswersMirrorBit : Obligations.GetLampAnswersMirrorBit := by
  intro s num hready
  refine (accept_ready hready).trans ?_
  rw [getLampBody, clampPos_operand]
  rfl

end Sys2Proof.Machine

/-! PROOFS. The gauge of 44_gauge.md: which bits the composite byte of a position lights (R261), and the eight register
writes of GAUGE with their events (R262). -/

namespace Sys2Proof.Machine

open Sys2Proof

/-! ### The bits of the composite byte -/

theorem litIf_bit (c : Bool) (mask : Byte) (i : Nat) :
    (litIf c mask).getLsbD i = true ↔ mask.getLsbD i = true ∧ c = true := by
  cases c <;> simp [litIf]

/-- R261, step 1. -/
theorem eightStep_bit (mask : Byte) (c g i : Nat) :
    (eightStep mask c g).getLsbD i = true ↔ mask.getLsbD i = true ∧ c ≤ g := by
  rw [eightStep, litIf_bit, decide_eq_true_iff]

/-- R261, step 2, with the shift and the mask read as division by 2 and its remainder. -/
theorem sixteenStep_bit (full half : Byte) (c g i : Nat) :
    (sixteenStep full half c g).getLsbD i = true ↔
      (full.getLsbD i = true ∧ c ≤ g / 2) ∨ (half.getLsbD i = true ∧ g % 2 = 1 ∧ c - 1 = g / 2) := by
  rw [sixteenStep, BitVec.getLsbD_or, Bool.or_eq_true, litIf_bit, litIf_bit, decide_eq_true_iff, decide_eq_true_iff,
    Nat.shiftRight_one, Nat.and_one_is_mod]

/-- Settles O42: step 3 of R261 is an OR of bytes, so a bit is lit if one of the five gauges lights it. -/
theorem gaugeByteLightsItsBits : Obligations.GaugeByteLightsItsBits := by
  intro seg c g1 g2 g3 g4 g5 i _ _
  simp only [gaugeByte, BitVec.getLsbD_or, Bool.or_eq_true, eightStep_bit, sixteenStep_bit, or_assoc]

/-! ### The register writes of GAUGE -/

/-- One register write after another sends their events, and the port is left as after the last one (40_framer.md R141,
R146). -/
theorem State.sendWrites_eq_afterSending (s : State) {ws : List RegWrite} (h : ws ≠ []) :
    s.sendWrites ws = s.afterSending (ws.flatMap (fun w => writeEvents w.1 w.2)) := by
  rw [State.sendWrites_eq_emit, State.emit, Port.foldl_writes _ _ h]
  rfl

/-- Writes to the positions 1..8 go to the addresses 0xC0, 0xC2 .. 0xCE (41_lookup.md R172, R174). -/
theorem positions_map_gridAddr (byte : Nat → Byte) :
    positions.map (fun (c : Nat) => (gridAddr (c : Int), byte c))
      = (List.range 8).map (fun j => (BitVec.ofNat 8 (0xC0 + 2 * j), byte (j + 1))) := by
  have ascending : positions = (List.range 8).map (· + 1) := rfl
  rw [ascending, List.map_map]
  refine List.map_congr_left fun j hj => ?_
  have inside : j + 1 ≤ 8 := List.mem_range.1 hj
  exact congrArg (·, byte (j + 1)) (gridAddr_position (Nat.le_add_left 1 j) inside)

/-- A byte for each position 1..8, sent in ascending order, is eight frames on the bus (44_gauge.md R262). -/
theorem State.sendWrites_positions (s : State) (byte : Nat → Byte) :
    s.sendWrites (positions.map (fun (c : Nat) => (gridAddr (c : Int), byte c)))
      = s.afterSending
          ((List.range 8).flatMap (fun j => writeEvents (BitVec.ofNat 8 (0xC0 + 2 * j)) (byte (j + 1)))) := by
  rw [positions_map_gridAddr, State.sendWrites_eq_afterSending, List.flatMap_map]
  exact List.cons_ne_nil _ _

/-- Settles O26: an accepted GAUGE sends the composite byte of each position 1..8 and does nothing else. -/
theorem gaugeWritesEveryPosition : Obligations.GaugeWritesEveryPosition := by
  intro s g1 g2 g3 g4 g5 hready
  exact (accept_ready hready).trans (congrArg _ (s.sendWrites_positions _))

end Sys2Proof.Machine

/-! PROOFS. The two encodings of 30_encoding.md: a code decodes to an instruction exactly if it is the code that the
encoder gives it, and the request words that decode are those of the opcode table. -/

namespace Sys2Proof

/-! ### A word of a format, told by its fields -/

theorem append_eq_field {m n : Nat} {x : BitVec m} {y : BitVec n} {w : RequestWord} {first : Nat} :
    x ++ y = w.extractLsb' first (m + n) ↔ x = w.extractLsb' (first + n) m ∧ y = w.extractLsb' first n := by
  rw [← BitVec.extractLsb'_append_extractLsb'_eq_extractLsb' rfl]
  constructor
  · intro h
    have high := congrArg (BitVec.extractLsb' n m) h
    have low := congrArg (BitVec.extractLsb' 0 n) h
    rw [BitVec.extractLsb'_append_eq_left, BitVec.extractLsb'_append_eq_left] at high
    rw [BitVec.extractLsb'_append_eq_right, BitVec.extractLsb'_append_eq_right] at low
    exact ⟨high, low⟩
  · rintro ⟨rfl, rfl⟩
    rfl

theorem ofBool_eq_field {on : Bool} {w : RequestWord} {i : Nat} :
    BitVec.ofBool on = w.extractLsb' i 1 ↔ on = w.getLsbD i := by
  rw [BitVec.getLsbD_eq_extractLsb']
  generalize w.extractLsb' i 1 = b
  revert b on
  decide

theorem eq_word_iff_eq_field {x w : RequestWord} : x = w ↔ x = w.extractLsb' 0 64 := by
  rw [BitVec.extractLsb'_eq_self]

theorem wordHN_eq_iff {op : Byte} {w : RequestWord} :
    wordHN op = w ↔ op = opcodeOf w ∧ 0#56 = w.extractLsb' 0 56 := by
  rw [eq_word_iff_eq_field, wordHN, append_eq_field]
  rfl

theorem wordHA_eq_iff {op a : Byte} {w : RequestWord} :
    wordHA op a = w ↔ op = opcodeOf w ∧ 0#48 = w.extractLsb' 8 48 ∧ a = w.extractLsb' 0 8 := by
  rw [eq_word_iff_eq_field, wordHA, append_eq_field, append_eq_field]
  simp only [and_assoc]
  rfl

theorem wordHL_eq_iff {op num : Byte} {on : Bool} {w : RequestWord} :
    wordHL op num on = w ↔
      op = opcodeOf w ∧ 0#47 = w.extractLsb' 9 47 ∧ on = w.getLsbD 8 ∧ num = w.extractLsb' 0 8 := by
  rw [eq_word_iff_eq_field, wordHL, append_eq_field, append_eq_field, append_eq_field, ofBool_eq_field]
  simp only [and_assoc]
  rfl

theorem wordHG_eq_iff {op pos code : Byte} {dp : Bool} {w : RequestWord} :
    wordHG op pos code dp = w ↔
      op = opcodeOf w ∧ 0#39 = w.extractLsb' 17 39 ∧ dp = w.getLsbD 16 ∧ code = w.extractLsb' 8 8 ∧
        pos = w.extractLsb' 0 8 := by
  rw [eq_word_iff_eq_field, wordHG, append_eq_field, append_eq_field, append_eq_field, append_eq_field, ofBool_eq_field]
  simp only [and_assoc]
  rfl

theorem wordHS_eq_iff {op : Byte} {value : BitVec 32} {dpPos start : Byte} {w : RequestWord} :
    wordHS op value dpPos start = w ↔
      op = opcodeOf w ∧ 0#8 = w.extractLsb' 48 8 ∧ start = w.extractLsb' 40 8 ∧ dpPos = w.extractLsb' 32 8 ∧
        value = w.extractLsb' 0 32 := by
  rw [eq_word_iff_eq_field, wordHS, append_eq_field, append_eq_field, append_eq_field, append_eq_field]
  simp only [and_assoc]
  rfl

theorem wordHV_eq_iff {op g1 g2 g3 g4 g5 : Byte} {w : RequestWord} :
    wordHV op g1 g2 g3 g4 g5 = w ↔
      op = opcodeOf w ∧ 0#16 = w.extractLsb' 40 16 ∧ g5 = w.extractLsb' 32 8 ∧ g4 = w.extractLsb' 24 8 ∧
        g3 = w.extractLsb' 16 8 ∧ g2 = w.extractLsb' 8 8 ∧ g1 = w.extractLsb' 0 8 := by
  rw [eq_word_iff_eq_field, wordHV, append_eq_field, append_eq_field, append_eq_field, append_eq_field, append_eq_field,
    append_eq_field]
  simp only [and_assoc]
  rfl

/-! ### Request words -/

theorem encode_of_decodeRequest {w : RequestWord} {i : Instr} (h : decodeRequest w = .ok i) :
    encode i = .request w := by
  unfold decodeRequest at h
  split at h
  case h_11 => cases h
  all_goals
    rename_i hop
    obtain ⟨hz, rfl⟩ := unlessSet_ok.1 h
    refine congrArg Code.request ?_
  case h_1 | h_7 | h_10 => exact wordHN_eq_iff.2 ⟨BitVec.eq_of_toNat_eq hop.symm, hz.symm⟩
  case h_2 | h_4 | h_6 => exact wordHA_eq_iff.2 ⟨BitVec.eq_of_toNat_eq hop.symm, hz.symm, rfl⟩
  case h_3 => exact wordHL_eq_iff.2 ⟨BitVec.eq_of_toNat_eq hop.symm, hz.symm, rfl, rfl⟩
  case h_5 => exact wordHG_eq_iff.2 ⟨BitVec.eq_of_toNat_eq hop.symm, hz.symm, rfl, rfl, rfl⟩
  case h_8 => exact wordHS_eq_iff.2 ⟨BitVec.eq_of_toNat_eq hop.symm, hz.symm, rfl, rfl, rfl⟩
  case h_9 => exact wordHV_eq_iff.2 ⟨BitVec.eq_of_toNat_eq hop.symm, hz.symm, rfl, rfl, rfl, rfl, rfl⟩

theorem decodeRequest_of_encode {w : RequestWord} {i : Instr} (h : encode i = .request w) :
    decodeRequest w = .ok i := by
  cases i
  case reset | clear | scan =>
    obtain ⟨hop, hz⟩ := wordHN_eq_iff.1 (Code.request.inj h)
    rw [decodeRequest, ← hop]
    exact unlessSet_ok.2 ⟨hz.symm, rfl⟩
  case setBright | getLamp | clearGrid =>
    obtain ⟨hop, hz, rfl⟩ := wordHA_eq_iff.1 (Code.request.inj h)
    rw [decodeRequest, ← hop]
    exact unlessSet_ok.2 ⟨hz.symm, rfl⟩
  case setLamp =>
    obtain ⟨hop, hz, rfl, rfl⟩ := wordHL_eq_iff.1 (Code.request.inj h)
    rw [decodeRequest, ← hop]
    exact unlessSet_ok.2 ⟨hz.symm, rfl⟩
  case setGrid =>
    obtain ⟨hop, hz, rfl, rfl, rfl⟩ := wordHG_eq_iff.1 (Code.request.inj h)
    rw [decodeRequest, ← hop]
    exact unlessSet_ok.2 ⟨hz.symm, rfl⟩
  case showNum =>
    obtain ⟨hop, hz, rfl, rfl, rfl⟩ := wordHS_eq_iff.1 (Code.request.inj h)
    rw [decodeRequest, ← hop]
    exact unlessSet_ok.2 ⟨hz.symm, rfl⟩
  case gauge =>
    obtain ⟨hop, hz, rfl, rfl, rfl, rfl, rfl⟩ := wordHV_eq_iff.1 (Code.request.inj h)
    rw [decodeRequest, ← hop]
    exact unlessSet_ok.2 ⟨hz.symm, rfl⟩
  case autoIncOn | keyScan | autoIncOff | displayOff | displayOn | addrGrid | addrLamp => cases h

/-! ### Frames -/

theorem gridByte_field {c : Byte} (h : isAddress c = true) (hbit : c.getLsbD 0 = false) :
    gridByte (c.extractLsb' 1 3) = c := by
  revert c
  decide

theorem lampByte_field {c : Byte} (h : isAddress c = true) (hbit : c.getLsbD 0 = true) :
    lampByte (c.extractLsb' 1 3) = c := by
  revert c
  decide

theorem cmdDisplay_field {c : Byte} (h : c.extractLsb' 3 5 = 0b10001#5) :
    cmdDisplay ((c.extractLsb' 0 3).toNat + 1) = c := by
  revert c
  decide

theorem encode_of_decodeCommand {c : Byte} {i : Instr} (h : decodeCommand c = .ok i) : encode i = .frame [c] := by
  unfold decodeCommand at h
  split_ifs at h with h40 h42 h44 h87 hlevel <;> cases h
  · rw [h40, encode]
  · rw [h42, encode]
  · rw [h44, encode]
  · rw [h87, encode, cmdDisplay]
  · rw [encode, cmdDisplay_field hlevel]

theorem encode_of_decodeFrame {bytes : List Byte} {i : Instr} (h : decodeFrame bytes = .ok i) :
    encode i = .frame bytes := by
  cases bytes with
  | nil => cases h
  | cons c data =>
    simp only [decodeFrame] at h
    split_ifs at h with haddr hbit hdata
    · cases h
      rw [encode, lampByte_field haddr hbit]
    · cases h
      rw [encode, gridByte_field haddr (Bool.eq_false_of_not_eq_true hbit)]
    · rw [List.isEmpty_iff.1 hdata]
      exact encode_of_decodeCommand h

theorem decodeFrame_of_encode {bytes : List Byte} {i : Instr} (h : encode i = .frame bytes) :
    decodeFrame bytes = .ok i := by
  cases i
  case autoIncOn | keyScan | autoIncOff | displayOff => cases h; rfl
  case displayOn k => cases h; exact Machine.decode_displayOn k
  case addrGrid k data =>
    obtain ⟨addr, bit, field⟩ := gridByte_fields k
    cases h
    simp only [decodeFrame, addr, bit, field]
    rfl
  case addrLamp k data =>
    obtain ⟨addr, bit, field⟩ := lampByte_fields k
    cases h
    simp only [decodeFrame, addr, bit, field]
    rfl
  all_goals cases h

/-! ### The obligations -/

theorem decode_eq_ok_iff {c : Code} {i : Instr} : decode c = .ok i ↔ encode i = c := by
  cases c with
  | request w => exact ⟨encode_of_decodeRequest, decodeRequest_of_encode⟩
  | frame bytes => exact ⟨encode_of_decodeFrame, decodeFrame_of_encode⟩

/-- Settles O1: `decode_eq_ok_iff` at the instruction's own code. -/
theorem decodeOfEncode : Obligations.DecodeOfEncode := fun _ => decode_eq_ok_iff.2 rfl

/-- Settles O2: the other direction of `decode_eq_ok_iff`. -/
theorem encodeOfDecode : Obligations.EncodeOfDecode := fun _ _ => decode_eq_ok_iff.1

theorem encode_isRequest {w : RequestWord} {i : Instr} (h : encode i = .request w) : i.isRequest = true := by
  cases i
  case autoIncOn | keyScan | autoIncOff | displayOff | displayOn | addrGrid | addrLamp => cases h
  all_goals rfl

/-! ### The opcode table -/

/-- The request word an instruction is encoded as is one of its row's (the family TableRow). -/
theorem requestRow_of_encode {w : RequestWord} {i : Instr} (h : encode i = .request w) :
    ∃ r ∈ requestTable, w &&& r.mask = r.pattern := by
  cases i <;> cases h
  case reset => exact ⟨requestTable[0], List.getElem_mem _, Laws.TableRow.reset⟩
  case setBright level => exact ⟨requestTable[1], List.getElem_mem _, Laws.TableRow.setBright level⟩
  case setLamp num on => exact ⟨requestTable[2], List.getElem_mem _, Laws.TableRow.setLamp num on⟩
  case getLamp num => exact ⟨requestTable[3], List.getElem_mem _, Laws.TableRow.getLamp num⟩
  case setGrid pos code dp => exact ⟨requestTable[4], List.getElem_mem _, Laws.TableRow.setGrid pos code dp⟩
  case clearGrid pos => exact ⟨requestTable[5], List.getElem_mem _, Laws.TableRow.clearGrid pos⟩
  case clear => exact ⟨requestTable[6], List.getElem_mem _, Laws.TableRow.clear⟩
  case showNum value dpPos start => exact ⟨requestTable[7], List.getElem_mem _, Laws.TableRow.showNum value dpPos start⟩
  case gauge g1 g2 g3 g4 g5 => exact ⟨requestTable[8], List.getElem_mem _, Laws.TableRow.gauge g1 g2 g3 g4 g5⟩
  case scan => exact ⟨requestTable[9], List.getElem_mem _, Laws.TableRow.scan⟩

/-- A field that the mask keeps whole is the pattern's. -/
theorem field_of_masked {w mask pattern : RequestWord} (h : w &&& mask = pattern) (first n : Nat)
    (hmask : mask.extractLsb' first n = BitVec.allOnes n) : w.extractLsb' first n = pattern.extractLsb' first n := by
  rw [← h, BitVec.extractLsb'_and, hmask, BitVec.and_allOnes]

theorem decodes_of_requestRow {w : RequestWord} {r : TableRow 64} (hr : r ∈ requestTable)
    (h : w &&& r.mask = r.pattern) : ∃ i, decodeRequest w = .ok i := by
  have masks : ∀ r ∈ requestTable, r.mask.extractLsb' 56 8 = BitVec.allOnes 8 := by decide
  have opcode : opcodeOf w = r.pattern.extractLsb' 56 8 := field_of_masked h 56 8 (masks r hr)
  unfold decodeRequest
  simp only [requestTable, List.mem_cons, List.not_mem_nil, or_false] at hr
  rw [opcode]
  rcases hr with rfl | rfl | rfl | rfl | rfl | rfl | rfl | rfl | rfl | rfl
  all_goals exact ⟨_, unlessSet_ok.2 ⟨field_of_masked h _ _ (by decide), rfl⟩⟩

/-- Settles O3: a word that decodes is its instruction's code, which lies in its row; a word in a row has the row's
opcode and zeros where its format must be zero. -/
theorem requestWordsAreTableWords : Obligations.RequestWordsAreTableWords := by
  intro w
  constructor
  · rintro ⟨i, hi⟩
    exact requestRow_of_encode (decode_eq_ok_iff.1 hi)
  · rintro ⟨r, hr, h⟩
    exact decodes_of_requestRow hr h

/-! ### Words and bytes by their numeric values -/

/-- Settles O4: each word is of the table's width and its code decodes as it says. -/
theorem sampleWordsDecode : Obligations.SampleWordsDecode := by
  unfold Obligations.SampleWordsDecode
  decide

/-- The address byte of register entry a: even entries are grid registers, odd ones lamp registers. -/
theorem addressByte_of_entry : ∀ a : Nat, a < 16 → BitVec.ofNat 8 (0xC0 + a)
    = if a % 2 = 0 then gridByte (BitVec.ofNat 3 (a / 2)) else lampByte (BitVec.ofNat 3 (a / 2)) := by
  decide

theorem decode_addressFrame {a : Nat} (ha : a < 16) (data : List Byte) :
    decode (.frame (BitVec.ofNat 8 (0xC0 + a) :: data))
      = .ok (if a % 2 = 0 then .addrGrid (BitVec.ofNat 3 (a / 2)) data
          else .addrLamp (BitVec.ofNat 3 (a / 2)) data) := by
  rw [decode_eq_ok_iff, addressByte_of_entry a ha]
  split <;> rfl

theorem decode_displayFrame {l : Nat} (hl : l ≤ 8) :
    decode (.frame [BitVec.ofNat 8 (0x87 + l)])
      = .ok (if l = 0 then .displayOff else .displayOn (BitVec.ofNat 3 (l - 1))) := by
  cases l with
  | zero => rfl
  | succ k =>
    have decoded := Machine.decode_displayOn (BitVec.ofNat 3 k)
    rwa [BitVec.toNat_ofNat, Nat.mod_eq_of_lt (by omega)] at decoded

/-- Settles O5: the encoder writes these bytes, so they decode to its instructions. -/
theorem commandBytesDecode : Obligations.CommandBytesDecode :=
  ⟨fun _ => decode_displayFrame, fun _ data ha => decode_addressFrame ha data, rfl, rfl, rfl⟩

end Sys2Proof

/-! PROOFS. What a request does, said once for all ten: the check that stands before it (60_exceptions.md R303), the
body that then runs, the frames that this body sends, and which fields of the state each body writes. -/

namespace Sys2Proof.Machine

open Sys2Proof

/-! ### Acceptance and body -/

/-- What a request does once it is accepted; the bus commands are no requests. -/
def requestBody : Instr → State → State
  | .reset => resetBody
  | .setBright level => setBrightBody level
  | .setLamp num on => setLampBody num on
  | .getLamp num => getLampBody num
  | .setGrid pos code dp =>
    State.sendWrite (gridAddr (unsignedOperand pos)) (segmentByte Config.font code.toNat dp)
  | .clearGrid pos => State.sendWrite (gridAddr (unsignedOperand pos)) (symbolToSegments Config.font blankCode)
  | .clear => State.sendWrites (clearWrites Config.font)
  | .showNum value dpPos start => State.sendWrites
      (showNumWrites Config.font (signedOperand value) (unsignedOperand dpPos) (unsignedOperand start))
  | .gauge g1 g2 g3 g4 g5 =>
    State.sendWrites (gaugeWrites Config.gaugeSeg g1.toNat g2.toNat g3.toNat g4.toNat g5.toNat)
  | .scan => scanBody
  | _ => id

/-- Every request but RESET is checked with its own word (60_exceptions.md R303, R304). -/
theorem exec_eq_accept {i : Instr} (hi : i.isRequest = true) (hne : i ≠ .reset) :
    ∃ w, encode i = .request w ∧ ∀ s, exec i s = accept w (requestBody i) s := by
  cases i
  case reset => exact absurd rfl hne
  case autoIncOn | keyScan | autoIncOff | displayOff | displayOn | addrGrid | addrLamp => cases hi
  all_goals exact ⟨_, rfl, fun _ => rfl⟩

theorem exec_ready {i : Instr} {s : State} (hi : i.isRequest = true) (h : s.Ready) :
    exec i s = .next (requestBody i s) := by
  by_cases hne : i = .reset
  · subst hne
    exact acceptReset_running h.1
  · obtain ⟨w, -, hexec⟩ := exec_eq_accept hi hne
    rw [hexec, accept_ready h]

/-- The two ways in which a request answers a next state: it runs, or it is refused before the first RESET. -/
theorem exec_request_cases {i : Instr} {s t : State} (hi : i.isRequest = true) (h : exec i s = .next t) :
    ((i = .reset ∨ s.init = true) ∧ t = requestBody i s) ∨
      (i ≠ .reset ∧ s.init = false ∧ ∃ f, t = s.raise f) := by
  by_cases hne : i = .reset
  · subst hne
    exact .inl ⟨.inl rfl, (acceptReset_next h).2⟩
  · obtain ⟨w, -, hexec⟩ := exec_eq_accept hi hne
    rw [hexec] at h
    obtain ⟨-, ⟨hinit, rfl⟩ | ⟨hinit, rfl⟩⟩ := accept_next h
    · exact .inl ⟨.inr hinit, rfl⟩
    · exact .inr ⟨hne, hinit, _, rfl⟩

/-! ### Frames -/

/-- A whole frame on the bus: a write frame with its bytes, or a scan frame with the bytes read in it. -/
inductive BusFrame where
  | write (bytes : List Byte)
  | scan (b : ScanBytes)

/-- The events of a frame (40_framer.md R141, R144). -/
def BusFrame.events : BusFrame → List Event
  | .write bytes => frameEvents bytes
  | .scan b => scanEvents b

/-- The Tx bytes of a frame. -/
def BusFrame.txBytes : BusFrame → List Byte
  | .write bytes => bytes
  | .scan _ => [cmdKeyScan]

/-- The frames of register writes (40_framer.md R146). -/
def writeFrames (ws : List RegWrite) : List BusFrame := ws.map (fun w => .write [w.1, w.2])

/-- The frames that a request sends from state s. -/
def requestFrames : Instr → State → List BusFrame
  | .reset, _ => resetFrames.map .write
  | .setBright level, _ => [.write [cmdDisplay (clampBright (unsignedOperand level))]]
  | .setLamp num on, _ => writeFrames [(lampAddr (unsignedOperand num), lampData on)]
  | .setGrid pos code dp, _ => writeFrames [(gridAddr (unsignedOperand pos), segmentByte Config.font code.toNat dp)]
  | .clearGrid pos, _ => writeFrames [(gridAddr (unsignedOperand pos), symbolToSegments Config.font blankCode)]
  | .clear, _ => writeFrames (clearWrites Config.font)
  | .showNum value dpPos start, _ => writeFrames
      (showNumWrites Config.font (signedOperand value) (unsignedOperand dpPos) (unsignedOperand start))
  | .gauge g1 g2 g3 g4 g5, _ =>
    writeFrames (gaugeWrites Config.gaugeSeg g1.toNat g2.toNat g3.toNat g4.toNat g5.toNat)
  | .scan, s => [.scan s.nextScan]
  | _, _ => []

theorem writeFrames_events (ws : List RegWrite) :
    (writeFrames ws).flatMap BusFrame.events = ws.flatMap (fun w => frameEvents [w.1, w.2]) := by
  rw [writeFrames, List.flatMap_map]
  rfl

theorem State.sendWrites_eq_emit_writeFrames (s : State) (ws : List RegWrite) :
    s.sendWrites ws = s.emit ((writeFrames ws).flatMap BusFrame.events) := by
  rw [State.sendWrites_eq_emit, writeFrames_events]

/-! ### What a body does to each field -/

/-- The state after the frames of request i, with the fields that request i writes. Every field that is not named
here is as before. -/
theorem requestBody_eq (i : Instr) (s : State) :
    requestBody i s = { s.emit ((requestFrames i s).flatMap BusFrame.events) with
      lampMask := (match i with
        | .reset => some 0x00#8
        | .setLamp num on => some (withLampBit s.lampMirror (clampPos (unsignedOperand num) - 1) on)
        | _ => s.lampMask)
      autoIncrement := (match i with | .reset => some false | _ => s.autoIncrement)
      init := (match i with | .reset => true | _ => s.init)
      scanBuffer := (match i with | .scan => none | _ => s.scanBuffer)
      keyBytes := (match i with | .scan => s.keyBytes.drop 4 | _ => s.keyBytes)
      draws := (match i with | .scan => s.draws + 4 | _ => s.draws)
      responses := (match i with
        | .getLamp num => s.responses ++ [lampResponse s.lampMirror (clampPos (unsignedOperand num) - 1)]
        | .scan => s.responses ++ [scanDecode s.nextScan]
        | _ => s.responses) } := by
  cases i
  case reset => exact resetBody_eq s
  case clear | showNum | gauge => exact s.sendWrites_eq_emit_writeFrames _
  case setBright | setLamp | setGrid | clearGrid | scan => rfl
  case getLamp | autoIncOn | keyScan | autoIncOff | displayOff | displayOn | addrGrid | addrLamp =>
    exact congrArg (requestBody _) s.emit_nil.symm

@[simp] theorem requestBody_port (i : Instr) (s : State) :
    (requestBody i s).port = ((requestFrames i s).flatMap BusFrame.events).foldl Port.after s.port := by
  rw [requestBody_eq]
  rfl

@[simp] theorem requestBody_busRead (i : Instr) (s : State) : (requestBody i s).busRead = s.busRead := by
  rw [requestBody_eq]
  rfl

@[simp] theorem requestBody_busUnread (i : Instr) (s : State) :
    (requestBody i s).busUnread = s.busUnread ++ (requestFrames i s).flatMap BusFrame.events := by
  rw [requestBody_eq]
  rfl

@[simp] theorem requestBody_obs (i : Instr) (s : State) : (requestBody i s).obs = s.obs := by
  rw [requestBody_eq]
  rfl

theorem requestBody_trace (i : Instr) (s : State) :
    (requestBody i s).trace = s.trace ++ (requestFrames i s).flatMap BusFrame.events := by
  simp [State.trace]

/-- RESET and SETLAMP write the mirror. -/
theorem requestBody_lampMask (i : Instr) (s : State) :
    (requestBody i s).lampMask = s.lampMask ∨ (i = .reset ∧ (requestBody i s).lampMask = some 0x00#8) ∨
      ∃ num on, i = .setLamp num on ∧
        (requestBody i s).lampMask = some (withLampBit s.lampMirror (positionOf num - 1) on) := by
  rw [requestBody_eq]
  cases i
  case reset => exact .inr (.inl ⟨rfl, rfl⟩)
  case setLamp num on =>
    have bit := congrArg (fun p => some (withLampBit s.lampMirror (p - 1) on)) (clampPos_operand num)
    exact .inr (.inr ⟨num, on, rfl, bit⟩)
  all_goals exact .inl rfl

/-- RESET alone writes autoIncrement and init. -/
theorem requestBody_autoIncrement_init (i : Instr) (s : State) :
    ((requestBody i s).autoIncrement = s.autoIncrement ∧ (requestBody i s).init = s.init) ∨
      (i = .reset ∧ (requestBody i s).autoIncrement = some false ∧ (requestBody i s).init = true) := by
  rw [requestBody_eq]
  cases i
  case reset => exact .inr ⟨rfl, rfl, rfl⟩
  all_goals exact .inl ⟨rfl, rfl⟩

/-- SCAN empties the scan buffer; no other request touches it (10_state.md R41). -/
theorem requestBody_scanBuffer {s : State} (i : Instr) (h : s.scanBuffer = none) :
    (requestBody i s).scanBuffer = none := by
  rw [requestBody_eq]
  cases i
  case scan => rfl
  all_goals exact h

/-- GETLAMP and SCAN give one response, every other request none (30_encoding.md R109). -/
theorem requestBody_responses (i : Instr) (s : State) :
    ((requestBody i s).responses = s.responses ∧ i ≠ .scan ∧ ∀ num, i ≠ .getLamp num) ∨
      ((i = .scan ∨ ∃ num, i = .getLamp num) ∧ ∃ v, (requestBody i s).responses = s.responses ++ [v]) := by
  rw [requestBody_eq]
  cases i
  case scan => exact .inr ⟨.inl rfl, _, rfl⟩
  case getLamp num => exact .inr ⟨.inr ⟨num, rfl⟩, _, rfl⟩
  all_goals exact .inl ⟨rfl, nofun, nofun⟩

/-! ### The obligations on acceptance and on the registers of the block -/

/-- Settles O9: the check of `accept` with the request's own word, in a state that has no fault and init 0. -/
theorem requestBeforeResetRaisesNotInitialized : Obligations.RequestBeforeResetRaisesNotInitialized := by
  intro s i hi hne hfault hinit
  obtain ⟨w, hw, hexec⟩ := exec_eq_accept hi hne
  exact ⟨w, hw, (hexec s).trans (accept_notReady hfault hinit)⟩

theorem exec_faulted {i : Instr} {s : State} {f : Fault} (hi : i.isRequest = true) (h : s.fault = some f) :
    exec i s = .fault f := by
  by_cases hne : i = .reset
  · subst hne
    exact acceptReset_faulted h
  · obtain ⟨w, -, hexec⟩ := exec_eq_accept hi hne
    rw [hexec, accept_faulted h]

/-- Settles O10: both acceptance checks and the fetching of a word look at the fault register first. -/
theorem faultStopsEveryRequest : Obligations.FaultStopsEveryRequest := by
  intro s f h
  refine ⟨fun i hi => exec_faulted hi h, fun hframe => ?_⟩
  simp [step, fetch, hframe, fetchRequest, h]

/-- Settles O56: of the bodies, RESET and SETLAMP alone write these registers, and a SETLAMP writes one bit. -/
theorem registerWriters : Obligations.RegisterWriters := by
  intro i s t h
  cases hi : i.isRequest with
  | false =>
    obtain ⟨f, hf⟩ := exec_command_observes s hi
    obtain rfl : s.observe f = t := Host.Outcome.next.inj (hf.symm.trans h)
    exact ⟨.inl rfl, .inl rfl, .inl rfl⟩
  | true =>
    obtain ⟨-, rfl⟩ | ⟨-, -, f, rfl⟩ := exec_request_cases hi h
    · have registers := requestBody_autoIncrement_init i s
      refine ⟨(requestBody_lampMask i s).imp_right (Or.imp_right ?_), registers.imp And.left fun ⟨hr, auto, _⟩ =>
        ⟨hr, auto⟩, registers.imp And.right fun ⟨hr, _, init⟩ => ⟨hr, init⟩⟩
      rintro ⟨num, on, rfl, mask⟩
      refine ⟨num, on, rfl, fun j hj => ?_⟩
      rw [State.lampMirror, mask, Option.getD_some]
      by_cases hlt : j < 8
      · rw [withLampBit_bit _ _ _ hlt, if_neg hj]
      · rw [BitVec.getLsbD_of_ge _ _ (by omega), BitVec.getLsbD_of_ge _ _ (by omega)]
    · exact ⟨.inl rfl, .inl rfl, .inl rfl⟩

theorem ne_of_isRequest {i j : Instr} (hi : i.isRequest = false) (hj : j.isRequest = true) : i ≠ j := by
  rintro rfl
  exact absurd (hi.symm.trans hj) Bool.false_ne_true

/-- Settles O57: an accepted request answers as its body does; a refused request and a bus command answer nothing. -/
theorem onlyGetLampAndScanRespond : Obligations.OnlyGetLampAndScanRespond := by
  intro i s t h
  cases hi : i.isRequest with
  | false =>
    obtain ⟨f, hf⟩ := exec_command_observes s hi
    obtain rfl : s.observe f = t := Host.Outcome.next.inj (hf.symm.trans h)
    exact .inl ⟨rfl, .inr ⟨ne_of_isRequest hi rfl, fun _ => ne_of_isRequest hi rfl⟩⟩
  | true =>
    obtain ⟨hrun, rfl⟩ | ⟨-, hinit, f, rfl⟩ := exec_request_cases hi h
    · obtain ⟨responses, hother⟩ | ⟨hwho, hv⟩ := requestBody_responses i s
      · exact .inl ⟨responses, .inr hother⟩
      · refine .inr ⟨hrun.resolve_left ?_, hwho, hv⟩
        rintro rfl
        obtain hscan | ⟨num, hget⟩ := hwho
        · cases hscan
        · cases hget
    · exact .inl ⟨rfl, .inl hinit⟩

/-! ### No request reads the observer -/

/-- Replace the observer in a next state. -/
def withObserver (o : Observer) : Host.Outcome State Fault Refusal → Host.Outcome State Fault Refusal
  | .next t => .next (t.observe fun _ => o)
  | .fault f => .fault f
  | .refused r => .refused r

theorem requestBody_observe (i : Instr) (s : State) (f : Observer → Observer) :
    requestBody i (s.observe f) = (requestBody i s).observe f := by
  have frames : requestFrames i (s.observe f) = requestFrames i s := by cases i <;> rfl
  rw [requestBody_eq, requestBody_eq, frames]
  rfl

theorem accept_observe (w : RequestWord) {run : State → State} {s : State} {o : Observer}
    (hrun : run (s.observe fun _ => o) = (run s).observe fun _ => o) :
    accept w run (s.observe fun _ => o) = withObserver o (accept w run s) := by
  cases hfault : s.fault with
  | some f => simp [accept, hfault, withObserver]
  | none =>
    cases hinit : s.init with
    | true => simp [accept, hfault, hinit, hrun, withObserver]
    | false =>
      rw [accept_notReady hfault hinit]
      exact accept_notReady hfault hinit

theorem acceptReset_observe {run : State → State} {s : State} {o : Observer}
    (hrun : run (s.observe fun _ => o) = (run s).observe fun _ => o) :
    acceptReset run (s.observe fun _ => o) = withObserver o (acceptReset run s) := by
  cases hfault : s.fault with
  | some f => simp [acceptReset, hfault, withObserver]
  | none => simp [acceptReset, hfault, hrun, withObserver]

/-- Settles O51: acceptance reads the fault register and init, and the bodies leave the observer alone. -/
theorem requestsDoNotReadTheChip : Obligations.RequestsDoNotReadTheChip := by
  intro i s o hi
  show exec i (s.observe fun _ => o) = withObserver o (exec i s)
  have hrun := requestBody_observe i s fun _ => o
  by_cases hne : i = .reset
  · subst hne
    exact acceptReset_observe hrun
  · obtain ⟨w, -, hexec⟩ := exec_eq_accept hi hne
    rw [hexec, hexec, accept_observe w hrun]

end Sys2Proof.Machine

/-! PROOFS. Whole frames on the trace: each is taken off in one piece, is legal from a port at rest and leaves it at
rest, and reading the frames one by one is reading the trace event by event. With this, what a step can do keeps the
invariant. -/

namespace Sys2Proof.Machine

open Sys2Proof

/-! ### One frame -/

theorem BusFrame.takeFrame_events (f : BusFrame) (es : List Event) :
    takeFrame none (f.events ++ es) = some ⟨f.events, f.txBytes, es⟩ := by
  cases f with
  | write bytes => exact takeFrame_frameEvents bytes es
  | scan b => exact takeFrame_scanEvents b es

/-- R81: the frame that a list of events begins with is its first. -/
theorem framesOf_of_takeFrame {pend : Option (List Byte)} {es : List Event} {f : FrameRead}
    (h : takeFrame pend es = some f) : framesOf pend es = f.bytes :: framesOf none f.rest := by
  induction es generalizing pend f with
  | nil => cases h
  | cons e es ih =>
    unfold takeFrame at h
    split at h
    · cases h
      rfl
    · rename_i hne
      obtain ⟨g, hg, rfl⟩ := Option.map_eq_some_iff.1 h
      conv_lhs => unfold framesOf
      split
      · exact (hne _ rfl rfl).elim
      · exact ih (f := g) hg

/-- Between two frames the strobe is HIGH and the line an output (40_framer.md R148, R149). -/
def Port.AtRest (p : Port) : Prop := p.stb = .high ∧ p.dir = .output

theorem replay_txBytes {p : Port} (hstb : p.stb = .low) (hdir : p.dir = .output) (bs : List Byte) :
    replay p (bs.map txByte) = some ((bs.map txByte).foldl Port.after p) := by
  induction bs generalizing p with
  | nil => rfl
  | cons b bs ih =>
    have legal : (txByte b).legal p = true := by simp [txByte, Event.legal, hstb, hdir]
    rw [List.map_cons, replay, if_pos legal]
    exact ih hstb hdir

/-- A frame is legal from a port at rest and leaves it at rest. -/
theorem BusFrame.replay_events (f : BusFrame) {p : Port} (hp : p.AtRest) :
    ∃ q, replay p f.events = some q ∧ q.AtRest := by
  obtain ⟨stb, dir, dio, dioSet⟩ := p
  obtain ⟨rfl, rfl⟩ : stb = .high ∧ dir = .output := hp
  cases f with
  | scan b => exact ⟨_, rfl, rfl, rfl⟩
  | write bytes =>
    have low : replay ⟨.low, .output, dio, dioSet⟩ (bytes.map txByte) = _ := replay_txBytes rfl rfl bytes
    rw [Port.foldl_txBytes] at low
    refine ⟨⟨.high, .output, if bytes = [] then dio else .unknown, dioSet⟩, ?_, rfl, rfl⟩
    show replay ⟨.low, .output, dio, dioSet⟩ (bytes.map txByte ++ [.stbHigh]) = _
    rw [replay_append, low]
    rfl

/-! ### Several frames -/

theorem framesOf_events (frames : List BusFrame) :
    framesOf none (frames.flatMap BusFrame.events) = frames.map BusFrame.txBytes := by
  induction frames with
  | nil => rfl
  | cons f frames ih =>
    rw [List.flatMap_cons, framesOf_of_takeFrame (f.takeFrame_events _), List.map_cons, ih]

theorem observeAll_events (frames : List BusFrame) (o : Observer) :
    observeAll (frames.flatMap BusFrame.events) o = (none, readFrames (frames.map BusFrame.txBytes) o) := by
  induction frames generalizing o with
  | nil => rfl
  | cons f frames ih =>
    obtain ⟨-, read⟩ := takeFrame_spec (f.takeFrame_events [])
    rw [List.flatMap_cons, observeAll, List.foldl_append, read]
    exact ih _

theorem replay_frames (frames : List BusFrame) {p : Port} (hp : p.AtRest) :
    ∃ q, replay p (frames.flatMap BusFrame.events) = some q ∧ q.AtRest := by
  induction frames generalizing p with
  | nil => exact ⟨p, rfl, hp⟩
  | cons f frames ih =>
    obtain ⟨q, hq, hrest⟩ := f.replay_events hp
    obtain ⟨r, hr, hrest'⟩ := ih hrest
    exact ⟨r, by rw [List.flatMap_cons, replay_append, hq, Option.bind_some, hr], hrest'⟩

/-- As many steps as frames wait read them all, and nothing else happens. -/
theorem run_reads_busFrames (frames : List BusFrame) {s : State}
    (h : s.busUnread = frames.flatMap BusFrame.events) :
    Host.Core.run Sys2Proof.core frames.length s
      = .next { s with
          busRead := s.trace, busUnread := [], obs := readFrames (frames.map BusFrame.txBytes) s.obs } := by
  induction frames generalizing s with
  | nil =>
    have unread : s.busUnread = [] := h
    have readAll : s.trace = s.busRead := by simp [State.trace, unread]
    rw [readAll, ← unread]
    rfl
  | cons f frames ih =>
    rw [List.flatMap_cons] at h
    have first := f.takeFrame_events (frames.flatMap BusFrame.events)
    rw [← h] at first
    rw [List.length_cons, run_succ _ (step_reads_frame first), ih rfl]
    simp [State.trace, State.readFrame, State.observe, readFrames, h]

/-! ### The obligations on what a request sends -/

/-- Settles O50: the request has sent whole frames (none, where it is refused), which are read one per step; by
`framesOf_events` and `observeAll_events` that is the event-by-event reading. -/
theorem observerReadsWhatARequestSent : Obligations.ObserverReadsWhatARequestSent := by
  intro i s t hi hunread h
  obtain ⟨frames, hsent, hobs⟩ :
      ∃ frames : List BusFrame, t.busUnread = frames.flatMap BusFrame.events ∧ t.obs = s.obs := by
    obtain ⟨-, rfl⟩ | ⟨-, -, f, rfl⟩ := exec_request_cases hi h
    · exact ⟨requestFrames i s, by simp [hunread], requestBody_obs i s⟩
    · exact ⟨[], hunread, rfl⟩
  rw [hsent, framesOf_events, List.length_map, run_reads_busFrames frames hsent, hobs, observeAll_events]

/-! ### What a step does -/

/-- The four ways in which a step answers a next state. -/
inductive StepEffect (s : State) : State → Prop where
  | frame (f : FrameRead) (hf : takeFrame none s.busUnread = some f) :
      StepEffect s ((s.readFrame f).observe (readBytes f.bytes))
  | idle : StepEffect s s
  | request (w : RequestWord) (ws : List RequestWord) (i : Instr) (t : State) (hf : s.fault = none)
      (hr : s.requests = w :: ws) (hi : i.isRequest = true)
      (hx : exec i (s.issue ws) = .next t) : StepEffect s t
  | illegal (w : RequestWord) (ws : List RequestWord) (hf : s.fault = none) (hr : s.requests = w :: ws) :
      StepEffect s ((s.issue ws).raise (.illegalRequest w))

theorem stepEffect_of_next {s t : State} (h : step s = .next t) : StepEffect s t := by
  cases hf : takeFrame none s.busUnread with
  | some f =>
    obtain rfl := Host.Outcome.next.inj ((step_reads_frame hf).symm.trans h)
    exact .frame f hf
  | none =>
    obtain ⟨f, -, hf', -⟩ | ⟨f, -, hf', -⟩ | ⟨-, -, -, rfl⟩ | ⟨w, ws, i, -, hfault, hr, hd, hx⟩ |
      ⟨w, ws, -, -, hfault, hr, -, rfl⟩ := step_cases h
    · cases hf.symm.trans hf'
    · cases hf.symm.trans hf'
    · exact .idle
    · exact .request w ws i t hfault hr (encode_isRequest (decode_eq_ok_iff.1 hd)) hx
    · exact .illegal w ws hfault hr

/-- Settles O11: reading a frame keeps the fault register, and a step with a fault recorded does nothing else. -/
theorem faultIsSticky : Obligations.FaultIsSticky := by
  intro s t f hfault h
  cases stepEffect_of_next h with
  | frame g hg => exact hfault
  | idle => exact hfault
  | request w ws i t hf => cases hf.symm.trans hfault
  | illegal w ws hf => cases hf.symm.trans hfault

/-- Settles O12: the step that takes a word moves the host's index, and the request then leaves it. -/
theorem stepAdvancesRequestIndexByOne : Obligations.StepAdvancesRequestIndexByOne := by
  intro s t h
  cases stepEffect_of_next h with
  | frame g hg => exact .inl ⟨rfl, rfl⟩
  | idle => exact .inl ⟨rfl, rfl⟩
  | request w ws i t hf hr hi hx =>
    obtain ⟨-, -, requests, index, -⟩ := exec_request_emits hi hx
    exact .inr ⟨w, hr.trans (by rw [requests]; rfl), index⟩
  | illegal w ws hf hr => exact .inr ⟨w, hr, rfl⟩

/-- Settles O7: `step_frame` and `step_word`. -/
theorem stepRunsDecodedInstruction : Obligations.StepRunsDecodedInstruction :=
  ⟨fun _ _ _ => step_frame, fun _ _ _ _ => step_word⟩

/-- Settles O8: a word in no row does not decode (`requestWordsAreTableWords`), so the fetch raises the fault. -/
theorem illegalWordRaisesIllegalRequest : Obligations.IllegalWordRaisesIllegalRequest := by
  intro s w ws hframe hfault hreq hrows
  cases hd : decode (.request w) with
  | ok i =>
    obtain ⟨r, hr, hcover⟩ := (requestWordsAreTableWords w).1 ⟨i, hd⟩
    exact absurd hcover (hrows r hr)
  | error r =>
    simp only [step, fetch, hframe, fetchRequest, hfault, hreq, fetchWord, hd]
    rfl

/-- Settles O13: with no word to take the fetch answers the state it was given. -/
theorem idleStepChangesNothing : Obligations.IdleStepChangesNothing := by
  intro s hframe hfault hreq
  simp only [step, fetch, hframe, fetchRequest, hfault, hreq]

/-- Settles O14: the observer reads the frame as `readBytes` says, which makes every field UNKNOWN. -/
theorem unknownFrameMakesObserverUnknown : Obligations.UnknownFrameMakesObserverUnknown := by
  intro s f r hf hd
  rw [step_reads_frame hf, readBytes_of_decode_error hd]
  rfl

/-! ### What a frame keeps of the observer -/

/-- The registers are in canonical form and the display setting is a legal one (20_memory.md R80). -/
def Observer.Wf (o : Observer) : Prop := Memory.wf o.ram ∧ o.display.legal = true

theorem Display.legal_level {l : Nat} : (Display.level l).legal = true ↔ 1 ≤ l ∧ l ≤ 8 := decide_eq_true_iff

theorem Observer.wf_allUnknown : Observer.allUnknown.Wf := ⟨Memory.wf_nil, rfl⟩

theorem Observer.Wf.displayFrame {o : Observer} {d : Display} (h : o.Wf) (hd : d.legal = true) :
    (o.displayFrame d).Wf := ⟨h.1, hd⟩

theorem Observer.Wf.writeFrame {o : Observer} (h : o.Wf) (a : Nat) (data : List Byte) : (o.writeFrame a data).Wf := by
  obtain ⟨⟨-, display, -⟩ | unknown, ram⟩ := Observer.writeFrame_cases o a data
  · exact ⟨ram h.1, display ▸ h.2⟩
  · exact unknown ▸ Observer.wf_allUnknown

theorem Observer.Wf.readBytes {o : Observer} (h : o.Wf) (bytes : List Byte) : (readBytes bytes o).Wf := by
  unfold Machine.readBytes
  split
  · exact Observer.wf_allUnknown
  · split_ifs with haddr hdata h40 h44 h42 h87 hlevel
    · exact h.writeFrame _ _
    · exact Observer.wf_allUnknown
    · exact h
    · exact h
    · exact h
    · exact h.displayFrame rfl
    · exact h.displayFrame (Display.legal_level.2 (by omega))
    · exact Observer.wf_allUnknown

/-! ### The invariant -/

namespace State.Inv

variable {s : State}

/-- The observer reads the first frame that waits. -/
theorem readFrame (h : s.Inv) {f : FrameRead} (hf : takeFrame none s.busUnread = some f) :
    ((s.readFrame f).observe (readBytes f.bytes)).Inv := by
  obtain ⟨hstb, hdir, hscan, hauto, hafter, hram, hdisplay, htrace, hobs⟩ := h
  obtain ⟨ram, display⟩ := Observer.Wf.readBytes ⟨hram, hdisplay⟩ f.bytes
  refine ⟨hstb, hdir, hscan, hauto, hafter, ram, display, ?_, ?_⟩
  · rw [State.trace_observe, State.trace_readFrame hf]
    exact htrace
  · obtain ⟨-, read⟩ := takeFrame_spec hf
    rw [observeAll] at hobs
    rw [State.observe_busRead, State.readFrame_busRead, observeAll, List.foldl_append, hobs, read]
    rfl

theorem raise (h : s.Inv) (f : Fault) : (s.raise f).Inv :=
  { h with }

theorem issue (h : s.Inv) (ws : List RequestWord) : (s.issue ws).Inv :=
  { h with }

/-- An accepted request: its frames are legal from the port at rest, and it leaves its registers as the invariant
asks. -/
theorem requestBody (h : s.Inv) (i : Instr) : (requestBody i s).Inv := by
  obtain ⟨hstb, hdir, hscan, hauto, hafter, hram, hdisplay, htrace, hobs⟩ := h
  obtain ⟨q, hq, rest⟩ := replay_frames (requestFrames i s) (p := s.port) ⟨hstb, hdir⟩
  have port : (Machine.requestBody i s).port = q := (requestBody_port i s).trans (replay_eq_foldl hq)
  have mirror : s.lampMask.isSome = true → (Machine.requestBody i s).lampMask.isSome = true := by
    intro some
    obtain mask | ⟨-, mask⟩ | ⟨num, on, -, mask⟩ := requestBody_lampMask i s
    · rwa [mask]
    · rw [mask]; rfl
    · rw [mask]; rfl
  refine ⟨port ▸ rest.1, port ▸ rest.2, requestBody_scanBuffer i hscan, ?_, ?_, ?_, ?_, ?_, ?_⟩
  · obtain ⟨auto, -⟩ | ⟨-, auto, -⟩ := requestBody_autoIncrement_init i s
    · rwa [auto]
    · rw [auto]; decide
  · obtain ⟨auto, init⟩ | ⟨rfl, auto, -⟩ := requestBody_autoIncrement_init i s
    · rw [auto, init]
      exact fun hinit => (hafter hinit).imp_left mirror
    · exact fun _ => ⟨rfl, auto⟩
  · rwa [requestBody_obs]
  · rwa [requestBody_obs]
  · rw [requestBody_trace, replay_append, htrace, Option.bind_some, hq, port]
  · rw [requestBody_busRead, requestBody_obs]
    exact hobs

end State.Inv

/-- Settles O48: at power-on the trace is empty and the observer knows nothing. -/
theorem invAtReset : Obligations.InvAtReset :=
  ⟨rfl, rfl, rfl, nofun, nofun, Memory.wf_nil, rfl, rfl, rfl⟩

/-- Settles O49: by the cases of `StepEffect`; a request either runs its body or is refused. -/
theorem stepKeepsInv : Obligations.StepKeepsInv := by
  intro s t hinv h
  cases stepEffect_of_next h with
  | frame f hf => exact hinv.readFrame hf
  | idle => exact hinv
  | request w ws i t hf hr hi hx =>
    obtain ⟨-, rfl⟩ | ⟨-, -, f, rfl⟩ := exec_request_cases hi hx
    · exact (hinv.issue ws).requestBody i
    · exact (hinv.issue ws).raise f
  | illegal w ws hf hr => exact (hinv.issue ws).raise _

end Sys2Proof.Machine

/-! PROOFS. The pure functions of the operands: the addresses and the font table of 41_lookup.md, the decimal text of
43_grid_ops.md R239, the gauges of 44_gauge.md, the scan decode of 45_scan.md and the bit orders of 20_memory.md R64. -/

namespace Sys2Proof.Machine

open Sys2Proof

/-! ### Addresses -/

theorem gridAddr_position_toNat {p : Nat} (h1 : 1 ≤ p) (h8 : p ≤ 8) : (gridAddr p).toNat = 0xC0 + (p - 1) * 2 := by
  rw [gridAddr_toNat, clampPos_position h1 h8]

theorem lampAddr_position_toNat {p : Nat} (h1 : 1 ≤ p) (h8 : p ≤ 8) : (lampAddr p).toNat = 0xC0 + 1 + (p - 1) * 2 := by
  rw [lampAddr_toNat, clampPos_position h1 h8]

/-- Settles O38: register entry a is a position's by a / 2 and of a kind by a % 2; the step by two is R172 where the
clamp does nothing. -/
theorem addressCalculatorCoversRegisters : Obligations.AddressCalculatorCoversRegisters := by
  refine ⟨fun a low high => ⟨(a - 0xC0) / 2 + 1, ⟨by omega, by omega, ?_, ?_⟩, fun m h1 h8 hm => ?_⟩, fun n h1 h7 => ?_,
    rfl⟩
  · rw [gridAddr_position_toNat (by omega) (by omega), lampAddr_position_toNat (by omega) (by omega)]
    omega
  · rw [gridAddr_position_toNat (by omega) (by omega), lampAddr_position_toNat (by omega) (by omega)]
    omega
  · rw [gridAddr_position_toNat h1 h8, lampAddr_position_toNat h1 h8] at hm
    omega
  · have here := clampPos_cast n
    have next := clampPos_cast (n + 1)
    rw [if_neg (by omega), if_neg (by omega)] at here next
    rw [gridAddr_toNat, gridAddr_toNat]
    omega

/-! ### Font table -/

theorem symbolToSegments_code (font : Font) {code : Nat} (h : code < 17) :
    symbolToSegments font code = (font.segments[code]).setWidth 8 := by
  have defined : code ≤ blankCode := Nat.le_of_lt h
  rw [symbolToSegments, if_pos defined, fontEntry, Vector.getElem?_eq_getElem h]

/-- Settles O39: code 17 is past the table and codes above it are blank by R175; the table's entries have seven bits. -/
theorem symbolLookupByFont : Obligations.SymbolLookupByFont := by
  refine fun font code => ⟨fun h => ?_, symbolToSegments_noPoint font code, fun h i hi => ?_⟩
  · rw [symbolToSegments, fontEntry, Vector.getElem?_eq_none h, ite_self]
  · rw [symbolToSegments_code font h, BitVec.getLsbD_setWidth, decide_eq_true (by omega), Bool.true_and]

/-! ### Decimal text -/

/-- Fuel above the number of binary digits does not matter. -/
theorem digitsWithin_fuel {f g u : Nat} (hf : u < 2 ^ (f + 1)) (hg : u < 2 ^ (g + 1)) :
    digitsWithin f u = digitsWithin g u := by
  induction f generalizing g u with
  | zero =>
    have small : u < 10 := by omega
    cases g with
    | zero => rfl
    | succ g => rw [digitsWithin, digitsWithin, if_pos small]
  | succ f ih =>
    cases g with
    | zero =>
      have small : u < 10 := by omega
      rw [digitsWithin, digitsWithin, if_pos small]
    | succ g =>
      rw [digitsWithin, digitsWithin, ih (u := u / 10) (g := g) (by omega) (by omega)]

theorem digits_eq (u : Nat) : digits u = if u < 10 then [u] else digits (u / 10) ++ [u % 10] := by
  have enough : u < 2 ^ (u.log2 + 1) := Nat.lt_log2_self
  have more : digits u = digitsWithin (u.log2 + 1) u := digitsWithin_fuel enough (by omega)
  rw [more, digitsWithin, digits]
  by_cases small : u < 10
  · rw [if_pos small, if_pos small]
  · rw [if_neg small, if_neg small, digitsWithin_fuel (u := u / 10) (by omega) Nat.lt_log2_self]

/-- Settles O40: one step of the fuelled recursion, whose fuel does not matter; the sign is R239's. -/
theorem decimalTextEquations : Obligations.DecimalTextEquations := by
  refine ⟨digits_eq, fun v => ?_⟩
  rw [decimalText]
  split
  · rw [show (-v).toNat = v.natAbs by omega, minusCode]
  · rw [show v.toNat = v.natAbs by omega]

theorem digits_length_pos (u : Nat) : 0 < (digits u).length := by
  rw [digits_eq]
  split <;> simp

/-- k + 1 digits are enough exactly for the numbers below 10 ^ (k + 1). -/
theorem digits_length_le_iff (k u : Nat) : (digits u).length ≤ k + 1 ↔ u < 10 ^ (k + 1) := by
  induction k generalizing u with
  | zero =>
    have pos := digits_length_pos (u / 10)
    rw [digits_eq, Nat.zero_add, Nat.pow_one]
    split
    · rw [List.length_singleton]
      omega
    · rw [List.length_append, List.length_singleton]
      omega
  | succ k ih =>
    have tenth := ih (u / 10)
    rw [Nat.div_lt_iff_lt_mul (by decide), ← Nat.pow_succ] at tenth
    rw [digits_eq]
    split
    · have large : 10 ≤ 10 ^ (k + 1 + 1) := Nat.le_self_pow (by omega) 10
      simp only [List.length_singleton]
      omega
    · rw [List.length_append, List.length_singleton, Nat.add_le_add_iff_right, tenth]

theorem decimalText_length (v : Int) :
    (decimalText v).length = (if v < 0 then 1 else 0) + (digits v.natAbs).length := by
  rw [decimalTextEquations.2]
  split
  · rw [List.length_cons, Nat.add_comm]
  · rw [Nat.zero_add]

/-- Settles O41: a 32-bit value has an absolute value of at most 2^31, so at most ten digits, and ten exactly from 10^9
on. -/
theorem decimalTextLength : Obligations.DecimalTextLength := by
  intro v
  have low := BitVec.le_two_mul_toInt (x := v)
  have high := BitVec.two_mul_toInt_lt (x := v)
  have pos := digits_length_pos v.toInt.natAbs
  have ten := digits_length_le_iff 9 v.toInt.natAbs
  have nine := digits_length_le_iff 8 v.toInt.natAbs
  rw [decimalText_length]
  split <;> omega

/-! ### Gauges -/

/-- One 16-step gauge at position c: full from half the level on, half at the odd half-step, which comes after the full
positions (44_gauge.md R261, step 2). -/
theorem sixteenStep_eq (full half : Byte) {c : Nat} (hc : 1 ≤ c) (g : Nat) :
    sixteenStep full half c g
      = if c ≤ g / 2 then full else if g % 2 = 1 ∧ c - 1 = g / 2 then half else 0x00#8 := by
  rw [sixteenStep, litIf, litIf, Nat.shiftRight_one, Nat.and_one_is_mod]
  by_cases hfull : c ≤ g / 2
  · have nohalf : ¬ (g % 2 = 1 ∧ c - 1 = g / 2) := by omega
    simp [hfull, nohalf]
  · simp [hfull]

/-- Position j + 1 shows two half-steps, one or none of a level g. -/
theorem halfSteps_eq {full half : Byte} (hf : full ≠ 0#8) (hh : half ≠ 0#8) (hne : half ≠ full) (j g : Nat) :
    (if sixteenStep full half (j + 1) g = full then 2 else if sixteenStep full half (j + 1) g = half then 1 else 0)
      = min (g - 2 * j) 2 := by
  rw [sixteenStep_eq full half (Nat.le_add_left 1 j)]
  by_cases hfull : j + 1 ≤ g / 2
  · rw [if_pos hfull, if_pos rfl]
    omega
  · by_cases hhalf : g % 2 = 1 ∧ j + 1 - 1 = g / 2
    · rw [if_neg hfull, if_pos hhalf, if_neg hne, if_pos rfl]
      omega
    · rw [if_neg hfull, if_neg hhalf, if_neg hf.symm, if_neg hh.symm]
      omega

/-- The first n positions show the half-steps of a level up to 2 * n. -/
theorem sum_halfSteps (g n : Nat) : ((List.range n).map (fun j => min (g - 2 * j) 2)).sum = min g (2 * n) := by
  induction n with
  | zero => simp
  | succ n ih =>
    rw [List.range_succ, List.map_append, List.sum_append, ih]
    simp only [List.map_cons, List.map_nil, List.sum_singleton]
    omega

/-- Settles O43: disjoint masks that are not zero differ, so each position's share of the level can be read off. -/
theorem sixteenStepGaugeCountsHalfSteps : Obligations.SixteenStepGaugeCountsHalfSteps := by
  intro full half g hf hh hdisjoint
  have hne : half ≠ full := by
    rintro rfl
    exact hh (by rwa [BitVec.and_self] at hdisjoint)
  refine ⟨?_, fun c hc _ => ?_⟩
  · simp only [halfSteps_eq hf hh hne]
    exact sum_halfSteps g 8
  · rw [sixteenStep_eq full half hc]
    split_ifs
    · exact .inl rfl
    · exact .inr (.inl rfl)
    · exact .inr (.inr rfl)

theorem eightStep_clamp (mask : Byte) {c : Nat} (h8 : c ≤ 8) (g : Nat) :
    eightStep mask c (min g 8) = eightStep mask c g := by
  have same : c ≤ min g 8 ↔ c ≤ g := by omega
  simp only [eightStep, same]

theorem sixteenStep_clamp (full half : Byte) {c : Nat} (hc : 1 ≤ c) (h8 : c ≤ 8) (g : Nat) :
    sixteenStep full half c (min g 16) = sixteenStep full half c g := by
  have sameFull : c ≤ min g 16 / 2 ↔ c ≤ g / 2 := by omega
  have sameHalf : (min g 16 % 2 = 1 ∧ c - 1 = min g 16 / 2) ↔ (g % 2 = 1 ∧ c - 1 = g / 2) := by omega
  simp only [sixteenStep_eq full half hc, sameFull, sameHalf]

/-- Settles O44: no gauge sees its level beyond what its eight positions show. -/
theorem gaugeClampingUnobservable : Obligations.GaugeClampingUnobservable := by
  intro seg c g1 g2 g3 g4 g5 hc h8
  simp only [gaugeByte, eightStep_clamp _ h8, sixteenStep_clamp _ _ hc h8]

theorem litIf_and (b : Bool) (mask mask' : Byte) : litIf b mask &&& mask' = litIf b (mask &&& mask') := by
  cases b
  · exact BitVec.zero_and
  · rfl

@[simp] theorem litIf_zero (b : Bool) : litIf b 0x00#8 = 0x00#8 := ite_self _

/-- Settles O45: AND distributes over the OR of step 3, and keeps of each contribution all or, where the masks are
disjoint (R260), nothing. -/
theorem gaugesDoNotInterfere : Obligations.GaugesDoNotInterfere := by
  intro seg c g1 g2 g3 g4 g5
  have ascending := seg.valid.2
  have descending := ascending.imp (S := fun m m' => m' &&& m = 0#8) fun h => (BitVec.and_comm _ _).trans h
  simp only [List.pairwise_cons, List.mem_cons, List.not_mem_nil, or_false, forall_eq_or_imp, forall_eq]
    at ascending descending
  simp [gaugeByte, eightStep, sixteenStep, BitVec.and_or_distrib_left, BitVec.and_or_distrib_right, litIf_and,
    ascending, descending]

/-! ### Scan decode -/

theorem scanShift_eq (i : Nat) (x : Byte) : scanShift i x = x >>> i := by
  rw [scanShift]
  split
  · rfl
  · rename_i h
    rw [not_not.1 h, BitVec.zero_ushiftRight]

theorem scanDecode_eq (b : ScanBytes) :
    scanDecode b = b.b0.setWidth 32 ||| (b.b1 >>> 1).setWidth 32 ||| (b.b2 >>> 2).setWidth 32
      ||| (b.b3 >>> 3).setWidth 32 := by
  simp only [scanDecode, scanShift_eq, BitVec.ushiftRight_zero]

/-- The response is a byte, widened (45_scan.md, D26). -/
theorem scanDecode_eq_setWidth (b : ScanBytes) :
    scanDecode b = (b.b0 ||| b.b1 >>> 1 ||| b.b2 >>> 2 ||| b.b3 >>> 3).setWidth 32 := by
  simp only [scanDecode_eq, BitVec.setWidth_or]

theorem scanDecode_toNat (b : ScanBytes) :
    (scanDecode b).toNat = (b.b0 ||| b.b1 >>> 1 ||| b.b2 >>> 2 ||| b.b3 >>> 3).toNat := by
  rw [scanDecode_eq_setWidth, BitVec.toNat_setWidth_of_le (by decide)]

/-- Settles O46: the response is the OR of the shifted bytes, widened, and a shift by i loses the low i bits. -/
theorem scanDecodeLosesLowBits : Obligations.ScanDecodeLosesLowBits := by
  refine fun b0 b1 b2 b3 => ⟨?_, ?_, ?_⟩
  · simp only [scanDecode_toNat, BitVec.toNat_or, BitVec.toNat_ushiftRight, Nat.shiftRight_eq_div_pow,
      Nat.reducePow]
  · rw [scanDecode_toNat]
    exact BitVec.isLt _
  · have one : ∀ x : Byte, (x &&& 0xFE#8) >>> 1 = x >>> 1 := by decide
    have two : ∀ x : Byte, (x &&& 0xFC#8) >>> 2 = x >>> 2 := by decide
    have three : ∀ x : Byte, (x &&& 0xF8#8) >>> 3 = x >>> 3 := by decide
    simp only [scanDecode_eq, one, two, three]

/-! ### Bit orders -/

theorem txBits_eq (b : Byte) : txBits b = (List.range 8).map b.getLsbD := rfl

/-- A sample is shifted in at bit 0. -/
def shiftIn (acc : Byte) (bit : Bool) : Byte := (acc <<< 1) ||| (BitVec.ofBool bit).setWidth 8

theorem shiftIn_zero (acc : Byte) (bit : Bool) : (shiftIn acc bit).getLsbD 0 = bit := by
  simp [shiftIn]

theorem shiftIn_succ (acc : Byte) (bit : Bool) {j : Nat} (hj : j + 1 < 8) :
    (shiftIn acc bit).getLsbD (j + 1) = acc.getLsbD j := by
  rw [shiftIn, BitVec.getLsbD_or, BitVec.getLsbD_shiftLeft]
  simp [hj, -BitVec.getLsbD_eq_getElem]

/-- After some samples, bit j is the j-th sample from the last, or a bit of what was there before. -/
theorem foldl_shiftIn_bit (samples : List Bool) (acc : Byte) {j : Nat} (hj : j < 8) :
    (samples.foldl shiftIn acc).getLsbD j = samples.reverse[j]?.getD (acc.getLsbD (j - samples.length)) := by
  induction samples generalizing acc with
  | nil => rfl
  | cons bit samples ih =>
    rw [List.foldl_cons, ih, List.reverse_cons, List.length_cons]
    rcases Nat.lt_trichotomy j samples.length with later | rfl | earlier
    · rw [List.getElem?_append_left (by simpa using later), List.getElem?_eq_getElem (by simpa using later)]
      rfl
    · rw [List.getElem?_append_right (by simp), List.length_reverse, Nat.sub_self, shiftIn_zero,
        List.getElem?_eq_none (by simp)]
      rfl
    · obtain ⟨d, rfl⟩ := Nat.exists_eq_add_of_lt earlier
      have before : samples.length + d + 1 - samples.length = d + 1 := by omega
      have before' : samples.length + d + 1 - (samples.length + 1) = d := by omega
      rw [List.getElem?_eq_none (by simp; omega), List.getElem?_eq_none (by simp), Option.getD_none,
        Option.getD_none, before, before', shiftIn_succ _ _ (by omega)]

/-- Settles O47: `txBits` lists the bits from bit 0 on; with eight samples, bit 7 - k of `rxByte` is the k-th. -/
theorem bitOrderOutAndIn : Obligations.BitOrderOutAndIn := by
  refine ⟨fun b => ⟨rfl, fun k hk => ?_⟩, fun samples hlength k hk => ?_⟩
  · rw [txBits_eq, List.getElem?_map, List.getElem?_range hk]
    rfl
  · have bit : (rxByte samples).getLsbD (7 - k) = _ := foldl_shiftIn_bit samples 0#8 (j := 7 - k) (by omega)
    rw [bit, List.getElem?_reverse (by omega), show samples.length - 1 - (7 - k) = k by omega,
      List.getElem?_eq_getElem (by omega), Option.getD_some]

end Sys2Proof.Machine

/-! PROOFS. The grid operations SETGRID, CLEARGRID, CLEAR and SHOWNUM of 43_grid_ops.md, and GAUGE of 44_gauge.md: the
register writes each sends, and what the chip's registers hold once the observer has read them. -/

namespace Sys2Proof.Machine

open Sys2Proof

/-! ### Writes to consecutive grid registers -/

/-- The events of a byte for each of n positions from p on. -/
def gridEvents (p n : Nat) (byte : Nat → Byte) : List Event :=
  (List.range n).flatMap fun j => writeEvents (BitVec.ofNat 8 (gridRegister (p + j))) (byte j)

/-- The frames of these events. -/
def gridFrames (p n : Nat) (byte : Nat → Byte) : List (List Byte) :=
  (List.range n).map fun j => [BitVec.ofNat 8 (gridRegister (p + j)), byte j]

theorem gridFrames_events (p n : Nat) (byte : Nat → Byte) :
    (gridFrames p n byte).flatMap frameEvents = gridEvents p n byte := by
  rw [gridFrames, List.flatMap_map]
  rfl

theorem gridRegister_isRegister {p : Nat} (h8 : p ≤ 8) : isRegister (gridRegister p) = true := by
  refine decide_eq_true ?_
  simp only [gridRegister, regBase, regCount]
  omega

/-- Each position's register holds its byte afterwards, and every other register what it held (20_memory.md R84). -/
theorem chip_after_gridFrames (byte : Nat → Byte) {p n : Nat} (h1 : 1 ≤ p) (hfit : p + n ≤ 9) (o : Observer) :
    (∀ j, j < n → Memory.read (readFrames (gridFrames p n byte) o).ram (gridRegister (p + j)) = some (byte j)) ∧
      ∀ addr, (∀ j, j < n → addr ≠ gridRegister (p + j)) →
        Memory.read (readFrames (gridFrames p n byte) o).ram addr = Memory.read o.ram addr := by
  induction n with
  | zero => exact ⟨nofun, fun _ _ => rfl⟩
  | succ n ih =>
    obtain ⟨written, kept⟩ := ih (by omega)
    have last : (readFrames (gridFrames p (n + 1) byte) o).ram
        = Memory.write (readFrames (gridFrames p n byte) o).ram (gridRegister (p + n)) (byte n) := by
      rw [gridFrames, List.range_succ, List.map_append, readFrames, List.foldl_append]
      exact congrArg Observer.ram (readBytes_registerWrite (gridRegister_isRegister (by omega)) (byte n) _)
    rw [last]
    refine ⟨fun j hj => ?_, fun addr other => ?_⟩
    · rcases Nat.lt_succ_iff_lt_or_eq.1 hj with hlt | rfl
      · rw [Memory.read_write_other _ _ (by simp only [gridRegister]; omega), written j hlt]
      · rw [Memory.read_write_same]
    · rw [Memory.read_write_other _ _ (other n (Nat.lt_succ_self n)).symm]
      exact kept addr fun j hj => other j (Nat.lt_succ_of_lt hj)

/-- The steps after a request that has sent these events: n frames are read, and nothing but the observer changes. -/
theorem run_after_gridEvents (byte : Nat → Byte) {p n : Nat} (h1 : 1 ≤ p) (hfit : p + n ≤ 9) {s : State}
    (hunread : s.busUnread = []) :
    ∃ u : State, Host.Core.run Sys2Proof.core n (s.afterSending (gridEvents p n byte)) = .next u ∧
      u.busUnread = [] ∧ u.lampMask = s.lampMask ∧
      (∀ j, j < n → Memory.read u.obs.ram (gridRegister (p + j)) = some (byte j)) ∧
      ∀ addr, (∀ j, j < n → addr ≠ gridRegister (p + j)) → Memory.read u.obs.ram addr = Memory.read s.obs.ram addr := by
  have sent : (s.afterSending (gridEvents p n byte)).busUnread = (gridFrames p n byte).flatMap frameEvents := by
    rw [gridFrames_events, State.afterSending, hunread, List.nil_append]
  have run := run_reads_frames _ sent
  rw [gridFrames, List.length_map, List.length_range, ← gridFrames] at run
  exact ⟨_, run, rfl, rfl, chip_after_gridFrames byte h1 hfit s.obs⟩

theorem State.sendWrite_grid (s : State) (pos d : Byte) :
    s.sendWrite (gridAddr (unsignedOperand pos)) d
      = s.afterSending (writeEvents (BitVec.ofNat 8 (gridRegister (positionOf pos))) d) := by
  rw [gridAddr_operand, State.sendWrite, State.emit_frameEvents _ (List.cons_ne_nil _ _)]
  rfl

theorem run_after_gridWrite (pos d : Byte) {s : State} (hunread : s.busUnread = []) :
    ∃ u : State, Host.Core.run Sys2Proof.core 1
        (s.afterSending (writeEvents (BitVec.ofNat 8 (gridRegister (positionOf pos))) d)) = .next u ∧
      u.busUnread = [] ∧ u.lampMask = s.lampMask ∧
      ∀ addr, Memory.read u.obs.ram addr
        = if addr = gridRegister (positionOf pos) then some d else Memory.read s.obs.ram addr := by
  obtain ⟨h1, h8⟩ := positionOf_range pos
  obtain ⟨u, run, unread, mask, written, kept⟩ :=
    run_after_gridEvents (fun _ => d) (n := 1) h1 (Nat.succ_le_succ h8) hunread
  refine ⟨u, run, unread, mask, fun addr => ?_⟩
  split
  · rename_i h
    rw [h]
    exact written 0 Nat.one_pos
  · rename_i h
    exact kept addr fun j hj => by rwa [Nat.lt_one_iff.1 hj]

/-! ### SETGRID and CLEARGRID -/

theorem exec_setGrid (pos code : Byte) (dp : Bool) {s : State} (h : s.Ready) :
    exec (.setGrid pos code dp) s
      = .next (s.afterSending (writeEvents (BitVec.ofNat 8 (gridRegister (positionOf pos)))
          (symbolToSegments Config.font code.toNat ||| (if dp then 0x80#8 else 0x00#8)))) :=
  (accept_ready h).trans (congrArg _ (s.sendWrite_grid pos _))

theorem exec_clearGrid (pos : Byte) {s : State} (h : s.Ready) :
    exec (.clearGrid pos) s
      = .next (s.afterSending (writeEvents (BitVec.ofNat 8 (gridRegister (positionOf pos))) 0x00#8)) := by
  rw [← symbolToSegments_blank Config.font]
  exact (accept_ready h).trans (congrArg _ (s.sendWrite_grid pos _))

/-- Settles O20: the symbol's own byte has bit 7 clear (D8), so bit 7 is the point's. -/
theorem setGridWritesSegmentByte : Obligations.SetGridWritesSegmentByte := by
  intro s pos code dp hready
  refine ⟨_, rfl, ?_, exec_setGrid pos code dp hready⟩
  rw [BitVec.getLsbD_or, symbolToSegments_noPoint, Bool.false_or]
  cases dp <;> rfl

/-- Settles O21: the blank symbol is 0x00 in every FONT. -/
theorem clearGridWritesBlank : Obligations.ClearGridWritesBlank := fun _ pos hready => exec_clearGrid pos hready

/-- Settles O22: both requests are one register write. -/
theorem gridWriteReachesChip : Obligations.GridWriteReachesChip :=
  fun _ pos code dp hready hunread =>
    ⟨⟨_, _, exec_setGrid pos code dp hready, (run_after_gridWrite pos _ hunread).choose_spec⟩,
      ⟨_, _, exec_clearGrid pos hready, (run_after_gridWrite pos _ hunread).choose_spec⟩⟩

/-! ### CLEAR and GAUGE -/

theorem gridRegister_one_add (j : Nat) : gridRegister (1 + j) = 0xC0 + 2 * j := by
  rw [gridRegister, Nat.add_sub_cancel_left]

/-- A byte for each position 1..8, sent in ascending order. -/
theorem State.sendWrites_positions_eq (s : State) (byte : Nat → Byte) :
    s.sendWrites (positions.map (fun (c : Nat) => (gridAddr (c : Int), byte c)))
      = s.afterSending (gridEvents 1 8 fun j => byte (j + 1)) := by
  simp only [gridEvents, gridRegister_one_add]
  exact s.sendWrites_positions byte

theorem exec_clear {s : State} (h : s.Ready) :
    exec .clear s = .next (s.afterSending (gridEvents 1 8 fun _ => 0x00#8)) := by
  rw [← symbolToSegments_blank Config.font]
  exact (accept_ready h).trans (congrArg _ (s.sendWrites_positions_eq _))

/-- Settles O23: the even addresses 0xC0..0xCE are the grid registers of the positions 1..8. -/
theorem clearBlanksEveryGrid : Obligations.ClearBlanksEveryGrid := by
  intro s hready
  refine ⟨_, exec_clear hready, rfl, fun hunread => ?_⟩
  obtain ⟨u, run, unread, -, written, kept⟩ := run_after_gridEvents (fun _ => 0x00#8) (n := 8) le_rfl le_rfl hunread
  simp only [gridRegister_one_add] at written kept
  refine ⟨u, run, unread, fun addr => ?_⟩
  split
  · have position := written ((addr - 0xC0) / 2) (by omega)
    rwa [show 0xC0 + 2 * ((addr - 0xC0) / 2) = addr by omega] at position
  · exact kept addr fun j hj => by omega

/-- Settles O27: GAUGE writes the grid registers, which have even addresses; those of the lamps are odd. -/
theorem gaugeReachesChip : Obligations.GaugeReachesChip := by
  intro s g1 g2 g3 g4 g5 hready hunread
  obtain ⟨u, run, unread, -, written, kept⟩ := run_after_gridEvents
    (fun j => gaugeByte Config.gaugeSeg (j + 1) g1.toNat g2.toNat g3.toNat g4.toNat g5.toNat)
    (n := 8) le_rfl le_rfl hunread
  refine ⟨_, u, (accept_ready hready).trans (congrArg _ (s.sendWrites_positions_eq _)), run, unread,
    fun c ⟨low, high⟩ => ?_, fun c ⟨low, high⟩ => kept _ fun j hj => ?_⟩
  · have position := written (c - 1) (by omega)
    rwa [Nat.sub_add_cancel low, Nat.add_sub_cancel' low] at position
  · simp only [gridRegister, lampRegister]
    omega

/-! ### SHOWNUM -/

/-- The loop of R242 from character number i on: a write for each character that is left, up to position 8. -/
theorem showNumLoop_eq (font : Font) (dpPos s : Nat) (i : Nat) (text : List Nat) :
    showNumLoop font dpPos s (i + 1) text
      = (List.range (min text.length (9 - (s + i)))).map fun j =>
          (gridAddr ((s + i + j : Nat) : Int), segmentByte font (text.getD j 17) (i + j + 1 == dpPos)) := by
  induction text generalizing i with
  | nil => simp [showNumLoop]
  | cons code text ih =>
    rw [showNumLoop, List.length_cons]
    split
    · rw [show 9 - (s + i) = 0 by omega, Nat.min_zero]
      rfl
    · rw [show 9 - (s + i) = 9 - (s + (i + 1)) + 1 by omega, Nat.add_min_add_right, List.range_succ_eq_map, ih,
        List.map_cons, List.map_map]
      refine congrArg₂ List.cons rfl (List.map_congr_left fun j _ => ?_)
      rw [Function.comp_apply, List.getD_cons_succ, show s + i + (j + 1) = s + (i + 1) + j by omega,
        show i + (j + 1) + 1 = i + 1 + j + 1 by omega]

/-- How many characters SHOWNUM sends, K of R242: the text from the start position to its end or to position 8. -/
def showNumCount (value : BitVec 32) (start : Byte) : Nat :=
  min (decimalText value.toInt).length (9 - positionOf start)

/-- The byte of character j, counted from 0. -/
def showNumByte (value : BitVec 32) (dpPos : Byte) (j : Nat) : Byte :=
  symbolToSegments Config.font ((decimalText value.toInt).getD j 17)
    ||| (if j + 1 = dpPos.toNat then 0x80#8 else 0x00#8)

theorem showNumCount_pos (value : BitVec 32) (start : Byte) : 0 < showNumCount value start := by
  obtain ⟨-, h8⟩ := positionOf_range start
  obtain ⟨pos, -⟩ := decimalTextLength value
  rw [showNumCount]
  omega

theorem showNum_fits (value : BitVec 32) (start : Byte) : positionOf start + showNumCount value start ≤ 9 := by
  obtain ⟨-, h8⟩ := positionOf_range start
  rw [showNumCount]
  omega

theorem showNumWrites_eq (value : BitVec 32) (dpPos start : Byte) :
    showNumWrites Config.font (signedOperand value) (unsignedOperand dpPos) (unsignedOperand start)
      = (List.range (showNumCount value start)).map fun j =>
          (BitVec.ofNat 8 (gridRegister (positionOf start + j)), showNumByte value dpPos j) := by
  obtain ⟨h1, h8⟩ := positionOf_range start
  rw [showNumWrites, clampPos_operand, showNumLoop_eq]
  refine List.map_congr_left fun j hj => ?_
  have inside : positionOf start + j ≤ 8 := by
    have := List.mem_range.1 hj
    omega
  rw [Nat.add_zero, gridAddr_position (by omega) inside, Nat.zero_add]
  refine congrArg (Prod.mk _) ?_
  simp [segmentByte, showNumByte, pointBit, unsignedOperand, signedOperand]

theorem showNumWrites_ne_nil (value : BitVec 32) (dpPos start : Byte) :
    showNumWrites Config.font (signedOperand value) (unsignedOperand dpPos) (unsignedOperand start) ≠ [] := by
  have pos := showNumCount_pos value start
  rw [showNumWrites_eq, Ne, List.map_eq_nil_iff, List.range_eq_nil]
  omega

theorem exec_showNum (value : BitVec 32) (dpPos start : Byte) {s : State} (h : s.Ready) :
    exec (.showNum value dpPos start) s
      = .next (s.afterSending
          (gridEvents (positionOf start) (showNumCount value start) (showNumByte value dpPos))) := by
  refine (accept_ready h).trans (congrArg _ ?_)
  rw [State.sendWrites_eq_afterSending _ (showNumWrites_ne_nil value dpPos start), showNumWrites_eq, List.flatMap_map]
  rfl

/-- Settles O24: the loop's writes, each of which is four events. -/
theorem showNumWritesText : Obligations.ShowNumWritesText :=
  fun _ value dpPos start hready => exec_showNum value dpPos start hready

/-- Settles O25: the writes go to consecutive positions from the start on, none past 8. -/
theorem showNumReachesChip : Obligations.ShowNumReachesChip := by
  intro s value dpPos start hready hunread
  obtain ⟨h1, -⟩ := positionOf_range start
  obtain ⟨u, run, unread, -, written, kept⟩ :=
    run_after_gridEvents (showNumByte value dpPos) h1 (showNum_fits value start) hunread
  exact ⟨_, u, exec_showNum value dpPos start hready, run, unread, written, kept⟩

end Sys2Proof.Machine

/-! PROOFS. SCAN of 45_scan.md, GETLAMP after SETLAMP, power-on, and the bus commands of 20_memory.md R82 to R85 as the
observer reads them. -/

namespace Sys2Proof.Machine

open Sys2Proof

/-! ### SCAN -/

theorem exec_scan {s : State} (h : s.Ready) : exec .scan s = .next (scanBody s) := accept_ready h

/-- Settles O28: the ten events of R144 leave a port that does not depend on the one before, and the scan buffer holds
the drawn bytes until the response is made. -/
theorem scanReadsFourBytes : Obligations.ScanReadsFourBytes := by
  refine fun s hready => ⟨_, _, _, _, rfl, rfl, rfl, rfl, (exec_scan hready).trans (congrArg _ ?_)⟩
  have response := scanDecode_eq s.nextScan
  rw [State.nextScan] at response
  rw [← response]
  rfl

/-- Settles O29: with the four bytes as the chip's next key bytes, these are the draws. -/
theorem everyScanQuadrupleCanOccur : Obligations.EveryScanQuadrupleCanOccur := by
  intro s b0 b1 b2 b3 hready
  refine ⟨[b0, b1, b2, b3], _, exec_scan hready, rfl,
    s.trace ++ [.stbLow, txByte cmdKeyScan, .dirIn], [.dirOut, .dataLow, .stbHigh], ?_⟩
  refine (requestBody_trace .scan _).trans ?_
  rw [List.append_assoc, List.append_assoc]
  rfl

/-- Settles O30: the scan frame's one Tx byte is the key-scan command, which R85 reads. -/
theorem scanLeavesChipModeUnknown : Obligations.ScanLeavesChipModeUnknown := by
  intro s hready hunread
  have sent : (scanBody s).busUnread = [BusFrame.scan s.nextScan].flatMap BusFrame.events := by
    show s.busUnread ++ _ = _
    rw [hunread]
    rfl
  exact ⟨_, _, exec_scan hready, run_reads_busFrames _ sent, rfl, rfl, rfl, rfl, rfl⟩

/-! ### GETLAMP after SETLAMP -/

/-- Settles O19: `getLampAnswersMirrorBit` in the state that `setLampWritesMirrorAndRegister` describes. -/
theorem getLampAfterSetLamp : Obligations.GetLampAfterSetLamp := by
  intro s t num other on hready h
  obtain ⟨t', mask, h', bits, ht, -⟩ := setLampWritesMirrorAndRegister s num on hready
  obtain rfl : t' = t := Host.Outcome.next.inj (h'.symm.trans h)
  obtain ⟨low, high⟩ := positionOf_range other
  obtain ⟨low', -⟩ := positionOf_range num
  have mirror : t'.lampMirror = mask := by rw [ht]; rfl
  have ready : t'.Ready := by rw [ht]; exact hready
  have same : positionOf other - 1 = positionOf num - 1 ↔ positionOf other = positionOf num := by omega
  rw [getLampAnswersMirrorBit t' other ready, mirror, bits _ (by omega)]
  by_cases hp : positionOf other = positionOf num
  · rw [if_pos hp, if_pos (same.2 hp)]
  · rw [if_neg hp, if_neg (mt same.1 hp)]

/-! ### Power-on -/

/-- Settles O6: `State.reset` field by field. -/
theorem powerOnState : Obligations.PowerOnState :=
  ⟨rfl, rfl, rfl, rfl, rfl, rfl, rfl, rfl, rfl, rfl, rfl, fun _ => rfl⟩

/-! ### The bus commands -/

/-- Settles O33: both rows are display frames. -/
theorem displayRowsComplete : Obligations.DisplayRowsComplete :=
  fun s k => ⟨⟨_, exec_displayOff s, rfl, s.observe_restore _⟩, ⟨_, exec_displayOn k s, rfl, s.observe_restore _⟩⟩

/-- Settles O34: KEY_SCAN is the observer's key-scan frame. -/
theorem keyScanMarksFrame : Obligations.KeyScanMarksFrame :=
  fun s => ⟨s.observe Observer.scanFrame, rfl, rfl, rfl, rfl, rfl, rfl, s.observe_restore _⟩

/-- The command of an address frame of register entry 2k or 2k + 1. -/
def addressCommand (k : BitVec 3) (lamp : Bool) (data : List Byte) : Instr :=
  if lamp then .addrLamp k data else .addrGrid k data

/-- The register entry of an address command (20_memory.md R84). -/
def addressEntry (k : BitVec 3) (lamp : Bool) : Nat := 2 * k.toNat + (if lamp then 1 else 0)

theorem addressEntry_lt (k : BitVec 3) (lamp : Bool) : addressEntry k lamp < regCount := by
  have := k.isLt
  simp only [addressEntry, regCount]
  split <;> omega

theorem exec_addressCommand (k : BitVec 3) (lamp : Bool) (data : List Byte) (s : State) :
    exec (addressCommand k lamp data) s = .next (s.observe (Observer.writeFrame (addressEntry k lamp) data)) := by
  cases lamp <;> rfl

theorem decode_addressCommand (k : BitVec 3) (lamp : Bool) (data : List Byte) :
    decode (.frame (BitVec.ofNat 8 (0xC0 + addressEntry k lamp) :: data)) = .ok (addressCommand k lamp data) := by
  rw [decode_addressFrame (addressEntry_lt k lamp)]
  cases lamp with
  | false =>
    have even : addressEntry k false % 2 = 0 := by simp [addressEntry]
    have half : addressEntry k false / 2 = k.toNat := by simp [addressEntry]
    rw [if_pos even, half, BitVec.ofNat_toNat, BitVec.setWidth_eq]
    rfl
  | true =>
    have odd : ¬ addressEntry k true % 2 = 0 := by simp only [addressEntry, if_true]; omega
    have half : addressEntry k true / 2 = k.toNat := by simp only [addressEntry, if_true]; omega
    rw [if_neg odd, half, BitVec.ofNat_toNat, BitVec.setWidth_eq]
    rfl

theorem Observer.writeFrame_append (o : Observer) (a : Nat) (data : List Byte) (d : Byte) :
    o.writeFrame a (data ++ [d]) = (o.writeFrame a data).writeData d := by
  rw [Observer.writeFrame, List.foldl_append]
  rfl

/-- Settles O35: a further data byte is one more `writeData`, which writes at a register and loses everything elsewhere;
the data before it has kept mode and display, or has lost the pointer. -/
theorem addressFrameWritesRegisters : Obligations.AddressFrameWritesRegisters := by
  intro s k lamp data d
  refine ⟨decode_addressCommand k lamp data, ⟨_, exec_addressCommand k lamp [] s, rfl, rfl, rfl, rfl, rfl⟩,
    ⟨_, _, exec_addressCommand k lamp data s, exec_addressCommand k lamp (data ++ [d]) s,
      fun p hp hlt => ?_, fun past => ?_, rfl⟩⟩
  · obtain ⟨⟨mode, display, -⟩ | unknown, -⟩ := Observer.writeFrame_cases s.obs (addressEntry k lamp) data
    · rw [State.observe_obs] at hp ⊢
      rw [State.observe_obs, Observer.writeFrame_append, Observer.writeData_inside d hp hlt]
      refine ⟨fun addr => ?_, ?_, mode, display⟩
      · rw [Memory.read_write]
        exact if_congr eq_comm rfl rfl
      · show AddressMode.pointerAfter _ p = _
        rw [mode]
        rfl
    · rw [State.observe_obs, unknown] at hp
      cases hp
  · rw [State.observe_obs, Observer.writeFrame_append]
    exact Observer.writeData_outside d past

theorem Memory.write_idem (m : Memory) (addr : Nat) (d : Byte) :
    Memory.write (Memory.write m addr d) addr d = Memory.write m addr d := by
  induction m with
  | nil => simp [Memory.write]
  | cons c m ih =>
    obtain ⟨a, b⟩ := c
    by_cases below : addr < a
    · simp [Memory.write, below]
    · by_cases here : addr = a
      · simp [Memory.write, here]
      · simp [Memory.write, below, here, ih]

/-- Settles O58: both frames write the addressed register, whatever the mode. -/
theorem registerWriteIsIdempotent : Obligations.RegisterWriteIsIdempotent := by
  intro s t u k lamp d ht hu
  obtain rfl := Host.Outcome.next.inj ((exec_addressCommand k lamp [d] s).symm.trans ht)
  obtain rfl := Host.Outcome.next.inj ((exec_addressCommand k lamp [d] _).symm.trans hu)
  rw [State.observe_obs, State.observe_obs, Observer.writeFrame_one _ d (addressEntry_lt k lamp),
    Observer.writeFrame_one _ d (addressEntry_lt k lamp)]
  exact Memory.write_idem _ _ _

/-! ### The bulk frame -/

/-- Under FIXED the pointer stays, so a repeated byte is written to one register. -/
theorem Observer.foldl_writeData_fixed (d : Byte) (n : Nat) {o : Observer} {p : Nat} (hmode : o.mode = .fixed)
    (hptr : o.ptr = some p) (hp : p < regCount) :
    ((List.replicate n d).foldl Observer.writeData o).ptr = some p ∧
      ((List.replicate n d).foldl Observer.writeData o).ram
        = if n = 0 then o.ram else Memory.write o.ram (regBase + p) d := by
  induction n generalizing o with
  | zero => exact ⟨hptr, rfl⟩
  | succ n ih =>
    have written := Observer.writeData_inside d hptr hp
    rw [hmode] at written
    obtain ⟨ptr, ram⟩ := ih (o := o.writeData d) (by rw [written]) (by rw [written]; rfl)
    rw [List.replicate_succ, List.foldl_cons]
    refine ⟨ptr, ram.trans ?_⟩
    rw [written, if_neg (Nat.succ_ne_zero n), Memory.write_idem, ite_self]

/-- Under AUTO the pointer advances with each byte that a register takes. -/
theorem Observer.ptr_foldl_writeData_auto (data : List Byte) {o : Observer} {p : Nat} (hmode : o.mode = .auto)
    (hptr : o.ptr = some p) (hfit : p + data.length ≤ regCount) :
    (data.foldl Observer.writeData o).ptr = some (p + data.length) := by
  induction data generalizing o p with
  | nil => exact hptr
  | cons d data ih =>
    rw [List.length_cons] at hfit ⊢
    have written := Observer.writeData_inside d hptr (by omega)
    rw [hmode] at written
    rw [List.foldl_cons, ih (o := o.writeData d) (p := p + 1) (by rw [written]) (by rw [written]; rfl) (by omega)]
    congr 1
    omega

/-- Settles O36: sixteen bytes fill the registers exactly where the pointer advances. -/
theorem bulkFrameNeedsAutoIncrement : Obligations.BulkFrameNeedsAutoIncrement := by
  intro s
  refine ⟨_, exec_addressCommand 0#3 false bulkZeros s, fun hmode => ?_, fun hmode => ?_⟩
  · have length : bulkZeros.length = 16 := List.length_replicate
    obtain ⟨-, ram⟩ := Observer.writeFrame_auto bulkZeros 0 hmode (by rw [length]; decide)
    refine ⟨?_, fun addr ⟨low, high⟩ => ?_⟩
    · exact Observer.ptr_foldl_writeData_auto bulkZeros (o := { s.obs with ptr := some 0, keys := some false }) hmode
        rfl (by rw [length]; decide)
    · refine (ram addr).trans ?_
      rw [length, regBase, if_pos (by omega), bulkZeros, List.getElem?_replicate_of_lt (by omega)]
  · obtain ⟨ptr, ram⟩ := Observer.foldl_writeData_fixed 0x00#8 16
      (o := { s.obs with ptr := some 0, keys := some false }) hmode rfl (by decide)
    refine ⟨ptr, fun addr => ?_⟩
    refine (congrArg (Memory.read · addr) ram).trans ?_
    exact (Memory.read_write _ _ _ _).trans (if_congr eq_comm rfl rfl)

end Sys2Proof.Machine

/-! PROOFS. What every accepted request leaves on the bus: well-formed frames (30_encoding.md R113, R116, R117), how
many events (70_reset_and_hazards.md R344), and the data level of the port in both accounts (log 10). -/

namespace Sys2Proof.Machine

open Sys2Proof

/-! ### Well-formed frames -/

/-- The bytes are a bus command as the block sends it (30_encoding.md R113, R116, R117). -/
def Sendable (bytes : List Byte) : Prop :=
  ∃ c, decode (.frame bytes) = .ok c ∧ c.wf = true ∧ c.isRequest = false

theorem sendable_gridWrite (n : Int) (d : Byte) : Sendable [gridAddr n, d] := by
  obtain ⟨low, high⟩ := clampPos_range n
  have decoded := decode_addressFrame (a := (clampPos n - 1) * 2) (by omega) [d]
  rw [if_pos (by omega)] at decoded
  exact ⟨_, decoded, rfl, rfl⟩

theorem sendable_lampWrite (n : Int) (on : Bool) : Sendable [lampAddr n, lampData on] := by
  obtain ⟨low, high⟩ := clampPos_range n
  have decoded := decode_addressFrame (a := 1 + (clampPos n - 1) * 2) (by omega) [lampData on]
  rw [if_neg (by omega), ← Nat.add_assoc] at decoded
  exact ⟨_, decoded, by cases on <;> rfl, rfl⟩

theorem sendable_display (level : Byte) : Sendable [cmdDisplay (clampBright (unsignedOperand level))] := by
  rw [clampBright_operand]
  have decoded := decode_displayFrame (Nat.min_le_right level.toNat 8)
  split at decoded
  · exact ⟨_, decoded, rfl, rfl⟩
  · exact ⟨_, decoded, rfl, rfl⟩

theorem showNumWrites_gridAddr {value : BitVec 32} {dpPos start : Byte} {w : RegWrite}
    (h : w ∈ showNumWrites Config.font (signedOperand value) (unsignedOperand dpPos) (unsignedOperand start)) :
    ∃ n : Int, w.1 = gridAddr n := by
  rw [showNumWrites, showNumLoop_eq] at h
  obtain ⟨j, -, rfl⟩ := List.mem_map.1 h
  exact ⟨_, rfl⟩

theorem positions_gridAddr {byte : Nat → Byte} {w : RegWrite}
    (h : w ∈ positions.map (fun (c : Nat) => (gridAddr (c : Int), byte c))) : ∃ n : Int, w.1 = gridAddr n := by
  obtain ⟨c, -, rfl⟩ := List.mem_map.1 h
  exact ⟨_, rfl⟩

theorem sendable_writeFrames {ws : List RegWrite} (h : ∀ w ∈ ws, ∃ n : Int, w.1 = gridAddr n) {f : BusFrame}
    (hf : f ∈ writeFrames ws) : Sendable f.txBytes := by
  obtain ⟨w, hw, rfl⟩ := List.mem_map.1 hf
  obtain ⟨n, hn⟩ := h w hw
  exact hn ▸ sendable_gridWrite n w.2

theorem requestFrames_sendable {i : Instr} {s : State} {f : BusFrame} (hf : f ∈ requestFrames i s) :
    Sendable f.txBytes := by
  cases i
  case reset =>
    obtain ⟨bytes, hb, rfl⟩ := List.mem_map.1 hf
    simp only [resetFrames, List.mem_cons, List.not_mem_nil, or_false] at hb
    rcases hb with rfl | rfl | rfl <;> exact ⟨_, rfl, rfl, rfl⟩
  case setBright level =>
    obtain rfl := List.mem_singleton.1 hf
    exact sendable_display level
  case setLamp num on =>
    obtain rfl := List.mem_singleton.1 hf
    exact sendable_lampWrite _ on
  case setGrid | clearGrid =>
    obtain rfl := List.mem_singleton.1 hf
    exact sendable_gridWrite _ _
  case clear | gauge => exact sendable_writeFrames (fun _ => positions_gridAddr) hf
  case showNum => exact sendable_writeFrames (fun _ => showNumWrites_gridAddr) hf
  case scan =>
    obtain rfl := List.mem_singleton.1 hf
    exact ⟨_, rfl, rfl, rfl⟩
  all_goals cases hf

/-- Settles O52: the events added are whole frames, so their Tx bytes are those of `requestFrames_sendable`. -/
theorem requestsSendWellFormedFrames : Obligations.RequestsSendWellFormedFrames := by
  intro i s t hi h
  obtain ⟨-, rfl⟩ | ⟨-, -, f, rfl⟩ := exec_request_cases hi h
  · refine ⟨_, requestBody_busUnread i s, fun bytes hb => ?_⟩
    rw [framesOf_events] at hb
    obtain ⟨f, hf, rfl⟩ := List.mem_map.1 hb
    exact requestFrames_sendable hf
  · exact ⟨[], (List.append_nil _).symm, nofun⟩

/-! ### How many events -/

theorem writeFrames_length (ws : List RegWrite) :
    ((writeFrames ws).flatMap BusFrame.events).length = 4 * ws.length := by
  induction ws with
  | nil => rfl
  | cons w ws ih =>
    rw [writeFrames, List.map_cons, List.flatMap_cons, List.length_append, ← writeFrames, ih, List.length_cons]
    show 4 + _ = _
    omega

theorem requestFrames_length (i : Instr) (s : State) :
    ((requestFrames i s).flatMap BusFrame.events).length
      = (match i with
        | .reset => 25
        | .setBright _ => 3
        | .setLamp _ _ => 4
        | .getLamp _ => 0
        | .setGrid _ _ _ => 4
        | .clearGrid _ => 4
        | .clear => 32
        | .showNum value _ start => 4 * showNumCount value start
        | .gauge _ _ _ _ _ => 32
        | .scan => 10
        | _ => 0) := by
  cases i
  case clear | gauge => exact writeFrames_length _
  case showNum value dpPos start =>
    refine (writeFrames_length _).trans ?_
    rw [showNumWrites_eq, List.length_map, List.length_range]
  all_goals rfl

/-- Settles O53: an accepted request adds the events of its frames, a bus command adds none. -/
theorem eventCountOfEveryRequest : Obligations.EventCountOfEveryRequest := by
  intro i s t hready h
  refine Eq.trans ?_ (congrArg (s.trace.length + ·) (requestFrames_length i s))
  cases hi : i.isRequest with
  | false =>
    obtain ⟨f, hf⟩ := exec_command_observes s hi
    obtain rfl : s.observe f = t := Host.Outcome.next.inj (hf.symm.trans h)
    have silent : requestFrames i s = [] := by
      cases i
      case autoIncOn | keyScan | autoIncOff | displayOff | displayOn | addrGrid | addrLamp => rfl
      all_goals cases hi
    rw [silent]
    rfl
  | true =>
    obtain rfl := Host.Outcome.next.inj ((exec_ready hi hready).symm.trans h)
    rw [requestBody_trace, List.length_append]

/-! ### The data level -/

theorem Port.dataLevel_writeFrames (p : Port) {ws : List RegWrite} (h : ws ≠ []) :
    (((writeFrames ws).flatMap BusFrame.events).foldl Port.after p).dioSet = p.dioSet ∧
      (((writeFrames ws).flatMap BusFrame.events).foldl Port.after p).dio = .unknown := by
  rw [writeFrames_events, Port.foldl_writes p ws h]
  exact ⟨rfl, rfl⟩

/-- Settles O54: a request that sends register writes leaves `dio` UNKNOWN, however many; the frames of the others are
few, and the port after them is computed. -/
theorem dataLevelAfterEveryRequest : Obligations.DataLevelAfterEveryRequest := by
  intro i s t hi hready h
  obtain rfl := Host.Outcome.next.inj ((exec_ready hi hready).symm.trans h)
  rw [requestBody_port]
  cases i
  case clear | gauge => exact Port.dataLevel_writeFrames s.port (List.cons_ne_nil _ _)
  case showNum value dpPos start => exact Port.dataLevel_writeFrames s.port (showNumWrites_ne_nil value dpPos start)
  case reset | setBright | setLamp | getLamp | setGrid | clearGrid | scan => exact ⟨rfl, rfl⟩
  all_goals cases hi

end Sys2Proof.Machine
